-- ==== Sys2Proof/Word.lean ====
section
/-! DEFINITION. The word types of the block (spec rules R5, R7, R60, R68, R79): bit 0 is the least significant bit,
byte 0 of a buffer is the first one received or transmitted. -/

namespace Sys2Proof

/-- A byte is 8 bits (R40). -/
abbrev Byte := BitVec 8

/-- One PCM sample cell as a bit pattern (R79). -/
abbrev Sample := BitVec 16

/-- The command word `CW[47:0]` (R60). -/
abbrev CommandWord := BitVec 48

/-- One draw of the entropy source, `RND[47:0]` (R84). -/
abbrev Draw := BitVec 48

/-- The 96-bit header value `HDR`, byte 0 most significant (R68, R76). -/
abbrev HeaderValue := BitVec 96

/-- A byte buffer, byte 0 first (R7, R40). -/
abbrev Buffer := List Byte

end Sys2Proof
end

