-- ==== Sys2Proof/Config.lean ====
section
/-! DEFINITION. What is fixed for one machine: the parameters of R5, the open parameter `DIN_MAX` of R6, and the
free values of the entropy source (R84). -/

namespace Sys2Proof

/-! ## The fixed parameters (R5) -/

/-- `CLIP`, the magnitude clamp of the encoder (R5, R101). -/
@[simp] abbrev clip : Nat := 32635

/-- `BIAS`, added by the encoder and removed by the decoder (R5, R101, R107). -/
@[simp] abbrev bias : Nat := 0x84

/-- `FRAME_SAMPLES`, samples of one AudioFrame (R5). -/
@[simp] abbrev frameSamples : Nat := 160

/-- `FRAME_BYTES`, bytes of one AudioFrame as PCM16 (R5). -/
@[simp] abbrev frameBytes : Nat := 320

/-- `HEADER_SIZE`, bytes of the serialized RTP header (R5, R70). -/
@[simp] abbrev headerSize : Nat := 12

/-- `PT_PCMU`, the payload type of the transmit frame path (R5). -/
@[simp] abbrev ptPcmu : Byte := 0

/-! ## The open parameter (R6) -/

/-- The parameter of R6 that an implementation fixes: the greatest number of bytes one command may bring on `DIN`. -/
structure Config where
  dinMax : Nat
deriving DecidableEq, Repr

/-- `DOUT_MAX = 2 * DIN_MAX` (R6). -/
def Config.doutMax (c : Config) : Nat := 2 * c.dinMax

/-- "any value of at least 2060 is conformant" (R6). -/
abbrev Config.Conformant (c : Config) : Prop := 2060 ≤ c.dinMax

/-- The default of R6: 2060 = 12 + 2048. -/
def Config.standard : Config := ⟨2060⟩

/-! ## Free values -/

/-- FREE VALUE (R84, D11): the n-th draw of the entropy source where none is stated. It has no body, so no claim can
rest on what it is: "No distribution, no independence between draws, no exclusion of any value". Log entry 2. -/
opaque Config.freeDraw : Nat → Draw

end Sys2Proof
end

