-- ==== Sys2Proof/Syntax.lean ====
section
/-! DEFINITION. The ten commands of the opcode map (R63) with the operands of R62. A field that a command ignores
(R65) is no part of its syntax, and `DIN` accompanies the command word without being part of it (R60). -/

namespace Sys2Proof

/-- One constructor per row of spec/opcode_table.json. -/
inductive Instr where
  /-- `ULAW.ENC sample`, the sample as its 16-bit two's-complement pattern (R62, R104). -/
  | ulawEnc (sample : Sample)
  /-- `ULAW.DEC code` (R62, R108). -/
  | ulawDec (code : Byte)
  /-- `ULAW.ENCB [pcm bytes]` (R111). -/
  | ulawEncb
  /-- `ULAW.DECB [ulaw bytes]` (R112). -/
  | ulawDecb
  /-- `RTP.RESET` (R131). -/
  | rtpReset
  /-- `RTP.BUILD pt, sc, [payload]` (R62, R134). -/
  | rtpBuild (pt : Byte) (sc : BitVec 32)
  /-- `RTP.PARSE [packet]` (R138). -/
  | rtpParse
  /-- `RTP.HDR [packet]` (R140). -/
  | rtpHdr
  /-- `TX.FRAME [pcm bytes]` (R160). -/
  | txFrame
  /-- `RX.PKT [packet]` (R163). -/
  | rxPkt
deriving DecidableEq, Repr

/-- The mnemonic of R63, as spec/opcode_table.json spells it. -/
def Instr.mnemonic : Instr → String
  | .ulawEnc _ => "ULAW.ENC"
  | .ulawDec _ => "ULAW.DEC"
  | .ulawEncb => "ULAW.ENCB"
  | .ulawDecb => "ULAW.DECB"
  | .rtpReset => "RTP.RESET"
  | .rtpBuild _ _ => "RTP.BUILD"
  | .rtpParse => "RTP.PARSE"
  | .rtpHdr => "RTP.HDR"
  | .txFrame => "TX.FRAME"
  | .rxPkt => "RX.PKT"

end Sys2Proof
end

