-- ==== Sys2Proof/WellFormed.lean ====
section
/-! DEFINITION. Well-formedness. The operand widths stand in the types of `Instr`, so every `Instr` is well formed;
what can be ill formed is a command as it is WRITTEN, with integer operands (R66), and a configuration (R6). The
checks are the operand ranges of R66, and a written command becomes an `Instr` only through them. -/

namespace Sys2Proof

/-- R66: `-32768 <= sample <= 32767`. -/
def sampleInRange (x : Int) : Bool := -32768 ≤ x && x ≤ 32767

/-- R66: `0 <= code <= 255`, and a `u8` payload type. -/
def byteInRange (n : Nat) : Bool := n ≤ 255

/-- R66: a `u32` sample count. -/
def countInRange (n : Nat) : Bool := n < 2 ^ 32

/-- A command as R66 writes it, before any range is checked; the buffer operand is not part of it. -/
inductive Written where
  | ulawEnc (sample : Int)
  | ulawDec (code : Nat)
  | ulawEncb
  | ulawDecb
  | rtpReset
  | rtpBuild (pt : Nat) (sc : Nat)
  | rtpParse
  | rtpHdr
  | txFrame
  | rxPkt
deriving DecidableEq, Repr

/-- The operand ranges of R66. -/
def Written.wellFormed : Written → Bool
  | .ulawEnc x => sampleInRange x
  | .ulawDec n => byteInRange n
  | .rtpBuild pt sc => byteInRange pt && countInRange sc
  | .ulawEncb | .ulawDecb | .rtpReset | .rtpParse | .rtpHdr | .txFrame | .rxPkt => true

/-- The instruction a well-formed written command stands for; an ill-formed one stands for none (R66). -/
def Written.toInstr (c : Written) : Option Instr :=
  if c.wellFormed then
    match c with
    | .ulawEnc x => some (.ulawEnc (BitVec.ofInt 16 x))
    | .ulawDec n => some (.ulawDec (BitVec.ofNat 8 n))
    | .ulawEncb => some .ulawEncb
    | .ulawDecb => some .ulawDecb
    | .rtpReset => some .rtpReset
    | .rtpBuild pt sc => some (.rtpBuild (BitVec.ofNat 8 pt) (BitVec.ofNat 32 sc))
    | .rtpParse => some .rtpParse
    | .rtpHdr => some .rtpHdr
    | .txFrame => some .txFrame
    | .rxPkt => some .rxPkt
  else none

end Sys2Proof
end

