-- ==== Sys2Proof/Decode.lean ====
section
/-! DEFINITION. Decoding a command word (R60 to R65), and the encoder after it. Decoding is total: a word selects the
row of the opcode map whose mask and match it meets, or it is a reserved opcode, refused by name (R64). -/

namespace Sys2Proof

/-! ## Fields of format C (R61) -/

/-- `CW[47:40]`, the opcode. -/
def opField (w : CommandWord) : Byte := w.extractLsb' 40 8

/-- `CW[39:32]`, the payload-type operand. -/
def ptField (w : CommandWord) : Byte := w.extractLsb' 32 8

/-- `CW[31:0]`, the immediate operand. -/
def immField (w : CommandWord) : BitVec 32 := w.extractLsb' 0 32

/-! ## The opcode map (R63) -/

/-- One row of the opcode map: a word selects it when `w & mask == match` (R63); `operands` takes the operands out of
the word by the slices of R62. -/
structure OpcodeRow where
  mnemonic : String
  pattern : CommandWord
  operands : CommandWord → Instr

/-- For every row `mask` = 0xFF0000000000 (R63). -/
def opcodeMask : CommandWord := 0xFF0000000000

/-- Whether a word selects a row: `w & mask == match` (R63). -/
def OpcodeRow.selects (r : OpcodeRow) (w : CommandWord) : Bool := w &&& opcodeMask == r.pattern

/-- The ten rows of R63, in its order, with the operand slices of R62. -/
def opcodeMap : List OpcodeRow :=
  [ ⟨"ULAW.ENC", 0x010000000000, fun w => .ulawEnc ((immField w).extractLsb' 0 16)⟩,
    ⟨"ULAW.DEC", 0x020000000000, fun w => .ulawDec ((immField w).extractLsb' 0 8)⟩,
    ⟨"ULAW.ENCB", 0x030000000000, fun _ => .ulawEncb⟩,
    ⟨"ULAW.DECB", 0x040000000000, fun _ => .ulawDecb⟩,
    ⟨"RTP.RESET", 0x100000000000, fun _ => .rtpReset⟩,
    ⟨"RTP.BUILD", 0x110000000000, fun w => .rtpBuild (ptField w) (immField w)⟩,
    ⟨"RTP.PARSE", 0x120000000000, fun _ => .rtpParse⟩,
    ⟨"RTP.HDR", 0x130000000000, fun _ => .rtpHdr⟩,
    ⟨"TX.FRAME", 0x200000000000, fun _ => .txFrame⟩,
    ⟨"RX.PKT", 0x210000000000, fun _ => .rxPkt⟩ ]

/-- Why a word is no command. -/
inductive DecodeError where
  /-- The opcode is one of the 246 reserved values (R64). -/
  | reservedOpcode (op : Byte)
deriving DecidableEq, Repr

/-- The command a word spells, or the reserved opcode it carries (R63, R64). -/
def decode (w : CommandWord) : Except DecodeError Instr :=
  match opcodeMap.find? (fun r => r.selects w) with
  | some r => .ok (r.operands w)
  | none => .error (.reservedOpcode (opField w))

/-- The instruction read from a word numbered as spec/opcode_table.json numbers it. Every command is one 48-bit word
(R60), so bits above `nbits` are zero and no more than 48 bits make a command. -/
def decodeTableWord (nbits w : Nat) : Option Instr :=
  if nbits ≤ 48 ∧ w < 2 ^ nbits then (decode (BitVec.ofNat 48 w)).toOption else none

/-! ## The encoder (R61, R62, R63; unused fields zero, R65) -/

/-- Format C: `op ‖ pt ‖ imm` (R61), each field shifted to its place. -/
def formatC (op pt : Byte) (imm : BitVec 32) : CommandWord :=
  (op.zeroExtend 48 <<< 40) ||| (pt.zeroExtend 48 <<< 32) ||| imm.zeroExtend 48

/-- The command word the assembler writes: zero in the fields the command does not use (R65). -/
def encode : Instr → CommandWord
  | .ulawEnc sample => formatC 0x01 0 (sample.zeroExtend 32)
  | .ulawDec code => formatC 0x02 0 (code.zeroExtend 32)
  | .ulawEncb => formatC 0x03 0 0
  | .ulawDecb => formatC 0x04 0 0
  | .rtpReset => formatC 0x10 0 0
  | .rtpBuild pt sc => formatC 0x11 pt sc
  | .rtpParse => formatC 0x12 0 0
  | .rtpHdr => formatC 0x13 0 0
  | .txFrame => formatC 0x20 0 0
  | .rxPkt => formatC 0x21 0 0

/-- The assembler of R66: the word of a written command, none where an operand is out of its range. The buffer operand
is no part of the word (R60). -/
def assemble (c : Written) : Option CommandWord := c.toInstr.map encode

/-! ## Words written out from the spec: R67's worked encodings and R65's ignored fields -/

/-- R67: `ULAW.ENC 1000` is 0x0100000003E8. -/
theorem decode_ulawEnc_1000 : (decode 0x0100000003E8).toOption = some (.ulawEnc 0x03E8) := by decide

/-- R67: `ULAW.ENC -1000` is 0x01000000FC18. -/
theorem decode_ulawEnc_neg1000 : (decode 0x01000000FC18).toOption = some (.ulawEnc 0xFC18) := by decide

/-- R67: `ULAW.DEC 0xCE` is 0x0200000000CE. -/
theorem decode_ulawDec_CE : (decode 0x0200000000CE).toOption = some (.ulawDec 0xCE) := by decide

/-- R67: `ULAW.ENCB [...]` is 0x030000000000. -/
theorem decode_ulawEncb : (decode 0x030000000000).toOption = some .ulawEncb := by decide

/-- R67: `ULAW.DECB [...]` is 0x040000000000. -/
theorem decode_ulawDecb : (decode 0x040000000000).toOption = some .ulawDecb := by decide

/-- R67: `RTP.RESET` is 0x100000000000. -/
theorem decode_rtpReset : (decode 0x100000000000).toOption = some .rtpReset := by decide

/-- R67: `RTP.BUILD pt=96, sc=2, [...]` is 0x116000000002. -/
theorem decode_rtpBuild_96_2 : (decode 0x116000000002).toOption = some (.rtpBuild 96 2) := by decide

/-- R67: `RTP.PARSE [...]` is 0x120000000000. -/
theorem decode_rtpParse : (decode 0x120000000000).toOption = some .rtpParse := by decide

/-- R67: `RTP.HDR [...]` is 0x130000000000. -/
theorem decode_rtpHdr : (decode 0x130000000000).toOption = some .rtpHdr := by decide

/-- R67: `TX.FRAME [...]` is 0x200000000000. -/
theorem decode_txFrame : (decode 0x200000000000).toOption = some .txFrame := by decide

/-- R67: `RX.PKT [...]` is 0x210000000000. -/
theorem decode_rxPkt : (decode 0x210000000000).toOption = some .rxPkt := by decide

end Sys2Proof
end

