-- ==== Sys2Proof/Machine/Operands.lean ====
section
/-! DEFINITION. The operand forms of R7 and R8: two's complement, byte order, concatenation of bytes. -/

namespace Sys2Proof.Machine

/-- `signed16(v)`: the integer in -32768..32767 that the pattern spells (R8). -/
def signed16 (v : Sample) : Int := v.toInt

/-- `twos16(i)`: the 16-bit pattern of an integer (R8). -/
def twos16 (i : Int) : Sample := BitVec.ofInt 16 i

/-- `zext_16(v)` of a byte (R8). -/
def zext16 (v : Byte) : BitVec 16 := v.zeroExtend 16

/-- `le16(b0, b1)`: `b1 ‖ b0`, the first byte the less significant (R8, R44). -/
def le16 (b0 b1 : Byte) : BitVec 16 := (b1.zeroExtend 16 <<< 8) ||| b0.zeroExtend 16

/-- `bytes_le16(v)`: least significant byte first (R8, R44). -/
def bytesLe16 (v : BitVec 16) : Buffer := [v.extractLsb' 0 8, v.extractLsb' 8 8]

/-- `bytes_be16(v)`: most significant byte first (R8, R43). -/
def bytesBe16 (v : BitVec 16) : Buffer := [v.extractLsb' 8 8, v.extractLsb' 0 8]

/-- `bytes_be32(v)`: most significant byte first (R8, R43). -/
def bytesBe32 (v : BitVec 32) : Buffer :=
  [v.extractLsb' 24 8, v.extractLsb' 16 8, v.extractLsb' 8 8, v.extractLsb' 0 8]

/-- `acc ‖ b` at the width of `HDR` (R7). -/
def appendByte (acc : HeaderValue) (b : Byte) : HeaderValue := (acc <<< 8) ||| b.zeroExtend 96

/-- `h0 ‖ h1 ‖ ... ‖ h11`, the first byte most significant (R68, R140). -/
def headerValue (bytes : Buffer) : HeaderValue := bytes.foldl appendByte 0

/-! ## The fields of `HDR` (R76) -/

/-- `version = HDR[95:94]`. -/
def hdrVersion (h : HeaderValue) : BitVec 2 := h.extractLsb' 94 2

/-- `flags = HDR[93:88]`. -/
def hdrFlags (h : HeaderValue) : BitVec 6 := h.extractLsb' 88 6

/-- `marker = HDR[87]`. -/
def hdrMarker (h : HeaderValue) : Bool := h.getLsbD 87

/-- `payload_type = HDR[86:80]`. -/
def hdrPayloadType (h : HeaderValue) : BitVec 7 := h.extractLsb' 80 7

/-- `sequence = HDR[79:64]`. -/
def hdrSequence (h : HeaderValue) : BitVec 16 := h.extractLsb' 64 16

/-- `timestamp = HDR[63:32]`. -/
def hdrTimestamp (h : HeaderValue) : BitVec 32 := h.extractLsb' 32 32

/-- `ssrc = HDR[31:0]`. -/
def hdrSsrc (h : HeaderValue) : BitVec 32 := h.extractLsb' 0 32

end Sys2Proof.Machine
end

