-- ==== Sys2Proof/Machine/State.lean ====
section
/-! DEFINITION. The state of the block as plain data (R22 to R26, R40, R41, R68), the model's own bookkeeping of a run
(R12, R21, R213), the reasons a step can stop, and the state after the hardware reset (R32, R200). -/

namespace Sys2Proof.Machine

/-- The response status (R180). -/
inductive Status where
  /-- 0: the command did what its rule says. -/
  | ok
  /-- 1: a reserved opcode. -/
  | illegal
  /-- 2: a length the command does not accept. -/
  | badlen
  /-- 3: a build before any stream reset. -/
  | nostream
deriving DecidableEq, Repr

/-- The four parts of a response (R68). -/
structure Response where
  status : Status
  scalar : BitVec 16
  hdr : HeaderValue
  dout : Buffer
deriving DecidableEq, Repr

/-- "`DIN`, `DOUT` and the response parts are empty or zero" (R200): what stands there between commands. Log entry 7. -/
def Response.none : Response := ⟨.ok, 0, 0, []⟩

/-- What the host does next (R214): issue a command word with its data-in buffer, or pulse `rst` (R200). -/
inductive HostAction where
  | issue (cw : CommandWord) (din : Buffer)
  | pulseRst
deriving DecidableEq, Repr

/-- The values of the current stream, as a reader of the three stream registers gets them (R25). -/
structure Stream where
  seq : BitVec 16
  ts : BitVec 32
  ssrc : BitVec 32
deriving DecidableEq, Repr

/-- The machine. The first four fields are the whole persistent state of the block (R26); `din` and `response` live for
one command (R41); `config` is fixed; the last five are the model's record of the host and of the entropy source. -/
structure State where
  /-- `VALID` (R25). -/
  valid : Bool
  /-- `SEQ` (R22). -/
  seq : BitVec 16
  /-- `TS` (R23). -/
  ts : BitVec 32
  /-- `SSRC` (R24). -/
  ssrc : BitVec 32
  /-- `DIN`, the operand buffer of the command in progress (R40, R41). -/
  din : Buffer
  /-- The response of the command in progress, `DOUT` in it (R40, R41, R68). -/
  response : Response
  /-- The open parameter `DIN_MAX` (R6). -/
  config : Config
  /-- The program: what the host will do, in order (R12, R213). -/
  program : List HostAction
  /-- The index into the program; the model's, not the block's (R21). -/
  index : Nat
  /-- The responses given so far, the first one first (R213). -/
  responses : List Response
  /-- The stated draws still to come (R12, R213). -/
  entropy : List Draw
  /-- How many draws have been taken: the argument of the free value `Config.freeDraw` (R84). -/
  drawn : Nat
deriving DecidableEq, Repr

/-- Why a step stops with a fault. Both are SAFE: they stand where R8 leaves a buffer access undefined, and no command
of the spec makes such an access. Log entry 5. -/
inductive Fault where
  /-- Raised by `readByte` and `memRead` on a byte at or beyond `DIN.len` (R8: "Defined only for `addr + n <= DIN.len`"). Safe. -/
  | dinOutOfRange
  /-- Raised by `memWrite` past the end of `DOUT`, where R8 gives the bytes between no value. Safe. -/
  | doutGap
deriving DecidableEq, Repr

/-- Why a step gives no meaning. -/
inductive Refusal where
  /-- Raised only by an arm of `exec` that has no meaning yet; no arm is so. Safe. -/
  | notModelled (mnemonic : String)
deriving DecidableEq, Repr

/-- The state when `rst` is released (R32, R200): `VALID = 0`, no command in progress, buffers and response empty.
`SEQ`, `TS` and `SSRC` hold no value there: the bits named here are read by nothing (log entry 1). No program is
placed, `DIN_MAX` is the default of R6 (log entries 3 and 4). -/
def State.reset : State where
  valid := false
  seq := 0
  ts := 0
  ssrc := 0
  din := []
  response := Response.none
  config := Config.standard
  program := []
  index := 0
  responses := []
  entropy := []
  drawn := 0

end Sys2Proof.Machine
end

