-- ==== Sys2Proof/Machine/Ops.lean ====
section
/-! DEFINITION. The named operations every command is built from: buffer accesses (R8, R50), the response (R68), the
refusal (R181), the capacity check (R42), the stream registers (R22 to R25), the draw (R84), the hardware reset (R200),
and the host's side of a run (R21, R213). -/

namespace Sys2Proof.Machine

/-! ## Buffers (R8, R40) -/

/-- One byte of `DIN` (R50: "Every access to `DIN` and `DOUT` is a byte access"). -/
def readByte (din : Buffer) (addr : Nat) : Except Fault Byte :=
  match din[addr]? with
  | some b => .ok b
  | none => .error .dinOutOfRange

/-- `MemRead(addr, n)`: the `n` bytes of `DIN` from `addr` on, "Defined only for `addr + n <= DIN.len`" (R8). -/
def memRead (din : Buffer) (addr n : Nat) : Except Fault Buffer :=
  if addr + n ≤ din.length then .ok ((din.drop addr).take n) else .error .dinOutOfRange

/-- `MemWrite(addr, n, v)`: writes the bytes `v` to `DOUT` from `addr` on and "makes `DOUT.len` at least `addr+n`" (R8). -/
def memWrite (dout : Buffer) (addr : Nat) (v : Buffer) : Except Fault Buffer :=
  if addr ≤ dout.length then .ok (dout.take addr ++ v ++ dout.drop (addr + v.length)) else .error .doutGap

/-- Sample `i` of a PCM buffer: `le16(DIN[2i], DIN[2i+1])` (R44, R47). -/
def readSample (din : Buffer) (i : Nat) : Except Fault Sample := do
  let b0 ← readByte din (2 * i)
  let b1 ← readByte din (2 * i + 1)
  return le16 b0 b1

/-! ## Responses (R68, R181) -/

/-- `respond(status = OK)`: parts a rule does not name are zero or empty (R68). -/
def Response.okEmpty : Response := ⟨.ok, 0, 0, []⟩

/-- `respond(status = OK, SCALAR = v)`. -/
def Response.okScalar (v : BitVec 16) : Response := ⟨.ok, v, 0, []⟩

/-- `respond(status = OK, HDR = v)`. -/
def Response.okHdr (v : HeaderValue) : Response := ⟨.ok, 0, v, []⟩

/-- `respond(status = OK, DOUT)`. -/
def Response.okDout (b : Buffer) : Response := ⟨.ok, 0, 0, b⟩

/-- The response of a refusal: all three data parts zero or empty (R68, R181). -/
def Response.refusal (code : Status) : Response := ⟨code, 0, 0, []⟩

/-- The command ends with this response (R8). -/
def respond (r : Response) (s : State) : State := { s with response := r }

/-- `raise Refuse(code)` (R181), the one shared operation of every refusal: no register, no flag and no draw is touched. -/
def refuse (code : Status) (s : State) : State := respond (Response.refusal code) s

/-- `if L > DIN_MAX: raise Refuse(BADLEN)`, the check that applies to every listed command (R42, R183 (a)). -/
def withCapacity (s : State) (k : Host.Outcome State Fault Refusal) : Host.Outcome State Fault Refusal :=
  if s.config.dinMax < s.din.length then .next (refuse .badlen s) else k

/-- A command ends with what its buffer work made. -/
def finish (made : Except Fault Buffer) (k : Buffer → State) : Host.Outcome State Fault Refusal :=
  match made with
  | .ok b => .next (k b)
  | .error f => .fault f

/-! ## The stream registers (R22 to R25, R32) -/

/-- The one read of the stream registers: with `VALID = 0` they hold no value, an absent value and not zero (R25, R32). -/
def State.stream (s : State) : Option Stream := if s.valid then some ⟨s.seq, s.ts, s.ssrc⟩ else none

/-- The two writes of a build: `SEQ <- (SEQ + 1) mod 65536`, `TS <- (TS + sample_count) mod 2^32` (R22, R23). -/
def advanceStream (sampleCount : BitVec 32) (s : State) : State :=
  { s with seq := s.seq + 1, ts := s.ts + sampleCount }

/-- The value `draw RND` gives: the next stated draw, or the free value where none is stated (R84). -/
def State.rnd (s : State) : Draw := s.entropy.headD (Config.freeDraw s.drawn)

/-- One draw is consumed (R84: "sampled once by each `RTP.RESET`"). -/
def consumeDraw (s : State) : State := { s with entropy := s.entropy.tail, drawn := s.drawn + 1 }

/-- The writes of the stream reset: `SEQ <- RND[47:32]`, `TS <- 0`, `SSRC <- RND[31:0]` (R131). -/
def openStream (rnd : Draw) (s : State) : State :=
  { s with seq := rnd.extractLsb' 32 16, ts := 0, ssrc := rnd.extractLsb' 0 32 }

/-! ## The hardware reset (R200, R202) -/

/-- `rst` asserted and released: the block's own state is that of R200, whatever it was; configuration and the record
of the run are not the block's and stay. -/
def hardwareReset (s : State) : State :=
  { s with
    valid := State.reset.valid, seq := State.reset.seq, ts := State.reset.ts, ssrc := State.reset.ssrc
    din := [], response := Response.none }

/-! ## The host's side of a run (R21, R206, R213) -/

/-- What the host does at this index; nothing once the program is exhausted (R21, R213). -/
def currentAction (s : State) : Option HostAction := s.program[s.index]?

/-- The block takes a command: its `DIN` is there, `DOUT` is empty (R41). -/
def accept (din : Buffer) (s : State) : State := { s with din := din, response := Response.none }

/-- The host takes the response: it joins the run's result, both buffers are gone (R41), and the index advances by one,
"whether it succeeds or is refused" (R21). -/
def retire (s : State) : State :=
  { s with
    responses := s.responses ++ [s.response], din := [], response := Response.none, index := s.index + 1 }

/-- One `rst` pulse of the program: the reset, no response (R200), and the model's index moves on. -/
def takeReset (s : State) : State := { hardwareReset s with index := s.index + 1 }

/-- "Between commands it is idle and holds its four state elements" (R195). -/
def idle (s : State) : State := s

/-- What follows a command that ended; a stop stays the stop it is. -/
def onNext (f : State → State) : Host.Outcome State Fault Refusal → Host.Outcome State Fault Refusal
  | .next s => .next (f s)
  | .fault r => .fault r
  | .refused r => .refused r

/-- The host presents this command word as its next action, with the bytes that stand on `DIN`. -/
def presentWord (cw : CommandWord) (s : State) : State :=
  { s with
    index := min s.index s.program.length
    program := s.program.take s.index ++ [.issue cw s.din] ++ s.program.drop (s.index + 1) }

end Sys2Proof.Machine
end

