-- ==== Sys2Proof/Machine/Flags.lean ====
section
/-! DEFINITION. The one flag and the status codes. The block has no condition codes: "the clamp of the encoder, the wrap
of `SEQ` and the wrap of `TS` are silent" (R30). `VALID` is the only flag (R25), and the status belongs to one response
(R180, R181). -/

namespace Sys2Proof.Machine

/-- The 2-bit code of a status (R68, R180). -/
def Status.code : Status → BitVec 2
  | .ok => 0
  | .illegal => 1
  | .badlen => 2
  | .nostream => 3

/-- `VALID <- 1`, the stream reset's write of the flag (R25, R131). -/
def setValid (s : State) : State := { s with valid := true }

/-- `if VALID == 0: raise Refuse(NOSTREAM)`; otherwise the command goes on with the values the registers hold, read once
at its start (R50, R184). -/
def withStream (s : State) (k : Stream → Host.Outcome State Fault Refusal) : Host.Outcome State Fault Refusal :=
  match s.stream with
  | none => .next (refuse .nostream s)
  | some st => k st

end Sys2Proof.Machine
end

