-- ==== Sys2Proof/Machine/Codec.lean ====
section
/-! DEFINITION. The μ-law codec (spec/40_ulaw_codec.md): the two pure functions of R101 and R107, the batch loops of R111
and R112, and the meanings of `ULAW.ENC`, `ULAW.DEC`, `ULAW.ENCB`, `ULAW.DECB`. -/

namespace Sys2Proof.Machine

/-! ## The encoder function (R101 to R103) -/

/-- The magnitude of a sample, clamped to `CLIP`; exact on integers, so -32768 has magnitude 32768 before the clamp
(R101, R103; log entry 9). -/
def clampedMagnitude (x : Int) : Nat := min x.natAbs clip

/-- `b = mag + 0x84` (R101). -/
def biasedMagnitude (x : Int) : Nat := clampedMagnitude x + bias

/-- `msb(v)`, the index of the most significant set bit of a nonzero number (R8). -/
def msb (v : Nat) : Nat := Nat.log2 v

/-- `e = msb(b) - 7` (R102; log entry 8). -/
def exponent (x : Int) : Nat := msb (biasedMagnitude x) - 7

/-- `m = (b >> (e + 3)) & 0x0F` (R101). -/
def mantissa (x : Int) : Nat := (biasedMagnitude x >>> (exponent x + 3)) &&& 0x0F

/-- The sign of a sample: 1 when it is negative (R101). -/
def signBit (x : Int) : Nat := if x < 0 then 1 else 0

/-- `v = (s << 7) | (e << 4) | m`, the code before the complement (R77, R101). -/
def uncomplemented (x : Int) : Byte := BitVec.ofNat 8 ((signBit x <<< 7) ||| (exponent x <<< 4) ||| mantissa x)

/-- `ulaw_enc(x)`, for -32768 <= x <= 32767 (R101). -/
def ulawEnc (x : Int) : Byte := ~~~ uncomplemented x

/-! ## The decoder function (R107) -/

/-- `mag = ((((m << 3) + 0x84) << e) - 0x84)`: shift first, subtract last (R107, conflict C1). -/
def decodedMagnitude (e m : Nat) : Nat := (((m <<< 3) + bias) <<< e) - bias

/-- `ulaw_dec(u)` (R107). -/
def ulawDec (u : Byte) : Int :=
  let v := ~~~ u
  let mag : Int := decodedMagnitude (v.extractLsb' 4 3).toNat (v.extractLsb' 0 4).toNat
  if v.getLsbD 7 then -mag else mag

/-! ## The batch loops (R111, R112) -/

/-- Encodes samples `i`, `i + 1`, ... of `DIN`, `k` of them, sample `j` going to `DOUT[base + j]` (R111, R160). -/
def encodeLoop (din : Buffer) (base : Nat) : (i k : Nat) → Buffer → Except Fault Buffer
  | _, 0, dout => .ok dout
  | i, k + 1, dout => do
    let x ← readSample din i
    let dout' ← memWrite dout (base + i) [ulawEnc (signed16 x)]
    encodeLoop din base (i + 1) k dout'

/-- Decodes bytes `base + i`, `base + i + 1`, ... of `DIN`, `k` of them, byte `base + j` going to `DOUT[2j]` and
`DOUT[2j+1]` (R112, R163). -/
def decodeLoop (din : Buffer) (base : Nat) : (i k : Nat) → Buffer → Except Fault Buffer
  | _, 0, dout => .ok dout
  | i, k + 1, dout => do
    let u ← readByte din (base + i)
    let dout' ← memWrite dout (2 * i) (bytesLe16 (twos16 (ulawDec u)))
    decodeLoop din base (i + 1) k dout'

/-! ## The commands -/

/-- `ULAW.ENC sample` (R104). -/
def execUlawEnc (sample : Sample) (s : State) : Host.Outcome State Fault Refusal :=
  withCapacity s (.next (respond (Response.okScalar (zext16 (ulawEnc (signed16 sample)))) s))

/-- `ULAW.DEC code` (R108). -/
def execUlawDec (code : Byte) (s : State) : Host.Outcome State Fault Refusal :=
  withCapacity s (.next (respond (Response.okScalar (twos16 (ulawDec code))) s))

/-- `ULAW.ENCB [pcm bytes]` (R111); a trailing odd byte is ignored (R47). -/
def execUlawEncb (s : State) : Host.Outcome State Fault Refusal :=
  withCapacity s <|
    finish (encodeLoop s.din 0 0 (s.din.length / 2) []) fun dout => respond (Response.okDout dout) s

/-- `ULAW.DECB [ulaw bytes]` (R112). -/
def execUlawDecb (s : State) : Host.Outcome State Fault Refusal :=
  withCapacity s <|
    finish (decodeLoop s.din 0 0 s.din.length []) fun dout => respond (Response.okDout dout) s

end Sys2Proof.Machine
end

