-- ==== Sys2Proof/Machine/Framer.lean ====
section
/-! DEFINITION. The RTP framer (spec/41_rtp_framer.md): the header function of R133 and the meanings of `RTP.RESET`,
`RTP.BUILD`, `RTP.PARSE`, `RTP.HDR`. -/

namespace Sys2Proof.Machine

/-- `rtp_header(pt, seq, ts, ssrc)`, the 12 bytes of R133: version 2 and six zero bits, marker 0 and the low seven bits
of the payload type (R70 to R72; log entry 10), then the three fields big-endian. -/
def rtpHeader (pt : Byte) (seq : BitVec 16) (ts ssrc : BitVec 32) : Buffer :=
  [0x80, pt &&& 0x7F] ++ bytesBe16 seq ++ bytesBe32 ts ++ bytesBe32 ssrc

/-- `RTP.RESET` (R131): accepted in every state (R132). -/
def execRtpReset (s : State) : Host.Outcome State Fault Refusal :=
  withCapacity s (.next (respond Response.okEmpty (setValid (openStream s.rnd (consumeDraw s)))))

/-- `RTP.BUILD pt, sc, [payload]` (R134): the header carries the values before the command (R136), the payload is
copied unchanged, then `SEQ` and `TS` advance. -/
def execRtpBuild (pt : Byte) (sc : BitVec 32) (s : State) : Host.Outcome State Fault Refusal :=
  withCapacity s <| withStream s fun st =>
    finish (do
        let header ← memWrite [] 0 (rtpHeader pt st.seq st.ts st.ssrc)
        let payload ← memRead s.din 0 s.din.length
        memWrite header headerSize payload)
      fun dout => respond (Response.okDout dout) (advanceStream sc s)

/-- `RTP.PARSE [packet]` (R138): the bytes after the fixed 12-byte header, none if there are none (R48, conflict C6). -/
def execRtpParse (s : State) : Host.Outcome State Fault Refusal :=
  withCapacity s <|
    if s.din.length ≤ headerSize then .next (respond Response.okEmpty s)
    else
      finish (do
          let payload ← memRead s.din headerSize (s.din.length - headerSize)
          memWrite [] 0 payload)
        fun dout => respond (Response.okDout dout) s

/-- `RTP.HDR [packet]` (R140): the first 12 bytes as `HDR`, not judged; a shorter packet is refused with `BADLEN`. -/
def execRtpHdr (s : State) : Host.Outcome State Fault Refusal :=
  withCapacity s <|
    if s.din.length < headerSize then .next (refuse .badlen s)
    else finish (memRead s.din 0 headerSize) fun bytes => respond (Response.okHdr (headerValue bytes)) s

end Sys2Proof.Machine
end

