-- ==== Sys2Proof/Machine/FramePath.lean ====
section
/-! DEFINITION. The frame paths (spec/42_frame_path.md): the meanings of `TX.FRAME` and `RX.PKT`. -/

namespace Sys2Proof.Machine

/-- `TX.FRAME [pcm bytes]` (R160): the checks in the order of R185, the short frame last of them (R161, conflict C8),
then the 172-byte datagram of the values before the command. -/
def execTxFrame (s : State) : Host.Outcome State Fault Refusal :=
  withCapacity s <|
    if frameBytes < s.din.length then .next (refuse .badlen s)
    else withStream s fun st =>
      if s.din.length < frameBytes then .next (respond Response.okEmpty s)
      else
        finish (do
            let header ← memWrite [] 0 (rtpHeader ptPcmu st.seq st.ts st.ssrc)
            encodeLoop s.din headerSize 0 frameSamples header)
          fun dout => respond (Response.okDout dout) (advanceStream (BitVec.ofNat 32 frameSamples) s)

/-- `RX.PKT [packet]` (R163): the payload after the header, decoded; nothing of the header is examined (R165). -/
def execRxPkt (s : State) : Host.Outcome State Fault Refusal :=
  withCapacity s <|
    if s.din.length ≤ headerSize then .next (respond Response.okEmpty s)
    else
      finish (decodeLoop s.din headerSize 0 (s.din.length - headerSize) []) fun dout =>
        respond (Response.okDout dout) s

end Sys2Proof.Machine
end

