-- ==== Sys2Proof/Machine/Dispatch.lean ====
section
/-! DEFINITION. One arm per command: each calls its own meaning. -/

namespace Sys2Proof.Machine

def exec (i : Instr) (s : State) : Host.Outcome State Fault Refusal :=
  match i with
  | .ulawEnc sample => Sys2Proof.Machine.execUlawEnc sample s
  | .ulawDec code => Sys2Proof.Machine.execUlawDec code s
  | .ulawEncb => Sys2Proof.Machine.execUlawEncb s
  | .ulawDecb => Sys2Proof.Machine.execUlawDecb s
  | .rtpReset => Sys2Proof.Machine.execRtpReset s
  | .rtpBuild pt sc => Sys2Proof.Machine.execRtpBuild pt sc s
  | .rtpParse => Sys2Proof.Machine.execRtpParse s
  | .rtpHdr => Sys2Proof.Machine.execRtpHdr s
  | .txFrame => Sys2Proof.Machine.execTxFrame s
  | .rxPkt => Sys2Proof.Machine.execRxPkt s

end Sys2Proof.Machine
end

