-- ==== Sys2Proof/Machine/Step.lean ====
section
/-! DEFINITION. One step: the host's next action, taken wholly (R10, R21, R202, R213). A command word is decoded, its
command executed on its own `DIN`, and the response taken; a reserved opcode is refused with `ILLEGAL`, nothing else of
it examined (R182); with the program exhausted the block is idle (R195). -/

namespace Sys2Proof.Machine

/-- One step of the machine. -/
def step (s : State) : Host.Outcome State Fault Refusal :=
  match currentAction s with
  | none => .next (idle s)
  | some .pulseRst => .next (takeReset s)
  | some (.issue cw din) =>
    match decode cw with
    | .error _ => .next (retire (refuse .illegal (accept din s)))
    | .ok i => onNext retire (exec i (accept din s))

/-- The state in which the very next step runs the command word `w`: it is the host's action at the index, with the
bytes that stand on `DIN`. This stands for the host presenting the command (log entry 4). -/
def State.withFetchWord (s : State) (_nbits w : Nat) : State := presentWord (BitVec.ofNat 48 w) s

end Sys2Proof.Machine
end

