-- ==== Sys2Proof/Safety.lean ====
section
/-! DEFINITION. The terms claims are stated in: what a well-formed response is (R68), the invariant of a run, which
commands are stateless (R27, R50), and a PCM buffer read as samples (R44). -/

namespace Sys2Proof.Machine

/-- `DIN.len <= DIN_MAX` (R42): the condition under which a listed command passes the capacity check. -/
abbrev WithinCapacity (s : State) : Prop := s.din.length ≤ s.config.dinMax

/-- "On any nonzero status all three data parts are zero or empty" (R68). -/
abbrev Response.WellFormed (r : Response) : Prop :=
  r.status ≠ .ok → r.scalar = 0 ∧ r.hdr = 0 ∧ r.dout = []

/-- "No command can produce more than `2 * DIN_MAX` bytes" (R42). -/
abbrev Response.Fits (c : Config) (r : Response) : Prop := r.dout.length ≤ c.doutMax

/-- What holds between commands, at reset and after every step: a conformant configuration (R6), buffers gone and the
response parts zero (R41, R200), the index inside the program (R21), and every response given well formed and within
`DOUT_MAX` (R42, R68). -/
abbrev State.Inv (s : State) : Prop :=
  s.config.Conformant ∧ s.din = [] ∧ s.response = Response.none ∧ s.index ≤ s.program.length ∧
    ∀ r ∈ s.responses, r.WellFormed ∧ r.Fits s.config

/-- The seven commands with "-" in all four columns of the access table (R27, R50). -/
def statelessCommand : Instr → Bool
  | .ulawEnc _ | .ulawDec _ | .ulawEncb | .ulawDecb | .rtpParse | .rtpHdr | .rxPkt => true
  | .rtpReset | .rtpBuild _ _ | .txFrame => false

/-- Whether a host action issues a stateless command (R27). -/
def statelessAction : HostAction → Bool
  | .issue cw _ =>
    match decode cw with
    | .ok i => statelessCommand i
    | .error _ => false
  | .pulseRst => false

/-- Sample `i` of a PCM buffer that holds it: `signed16(le16(b[2i], b[2i+1]))` (R44). -/
def sampleAt (b : Buffer) (i : Nat) : Int := signed16 (le16 (b.getD (2 * i) 0) (b.getD (2 * i + 1) 0))

/-- The packet an accepted build has made, with the sample count it declares: `RTP.BUILD` always, `TX.FRAME` unless the
frame was short (R28, R134, R160, R161). -/
def packetBuilt : HostAction × Response → Option (BitVec 32 × Buffer)
  | (.issue cw _, r) =>
    match decode cw with
    | .ok (.rtpBuild _ sc) => if r.status = .ok then some (sc, r.dout) else none
    | .ok .txFrame => if r.status = .ok ∧ r.dout ≠ [] then some (160, r.dout) else none
    | _ => none
  | (.pulseRst, _) => none

/-- The bits of a word that its command uses; the others are ignored (R65). -/
def usedBits (op : Byte) : CommandWord :=
  if op = 0x01 then 0xFF000000FFFF else if op = 0x02 then 0xFF00000000FF
  else if op = 0x11 then 0xFFFFFFFFFFFF else 0xFF0000000000

end Sys2Proof.Machine
end

