-- ==== Sys2Proof/Certificates/Slice0/Obligations.lean ====
section
/-! DEFINITION. The statements for the provers. Each docstring names the rule of spec/ it formalises. Where a statement
writes a next state as an update of the state before, every field it does not name is unchanged: that is the frame. -/

open Sys2Proof Sys2Proof.Machine

/-! ## Encodings (spec/30_encoding.md) -/

/-- R67, which the spec marks as derived from R61 to R63: the worked encodings, each word assembled from its written
command and decoded to it. -/
def Obligations.WorkedEncodingsAgree : Prop :=
  ∀ p ∈ ([ (.ulawEnc 1000, 0x0100000003E8), (.ulawEnc (-1000), 0x01000000FC18), (.ulawDec 0xCE, 0x0200000000CE),
      (.ulawEncb, 0x030000000000), (.ulawDecb, 0x040000000000), (.rtpReset, 0x100000000000),
      (.rtpBuild 0 160, 0x1100000000A0), (.rtpBuild 96 2, 0x116000000002), (.rtpParse, 0x120000000000),
      (.rtpHdr, 0x130000000000), (.txFrame, 0x200000000000), (.rxPkt, 0x210000000000) ] : List (Written × CommandWord)),
    assemble p.1 = some p.2 ∧ (decode p.2).toOption = p.1.toInstr

/-- R61, R62, R65: every operand at every value its field admits comes back from its word. -/
def Obligations.DecodeAfterEncodeIsIdentity : Prop :=
  ∀ i : Instr, decode (encode i) = .ok i ∧ decodeTableWord 48 (encode i).toNat = some i

/-- R61, R62, R63: what each listed opcode decodes to, the operands plain slices of the word. -/
def Obligations.ListedOpcodesDecodeToTheirSlices : Prop :=
  ∀ w : CommandWord,
    (opField w = 0x01 → decode w = .ok (.ulawEnc (w.extractLsb' 0 16))) ∧
    (opField w = 0x02 → decode w = .ok (.ulawDec (w.extractLsb' 0 8))) ∧
    (opField w = 0x03 → decode w = .ok .ulawEncb) ∧
    (opField w = 0x04 → decode w = .ok .ulawDecb) ∧
    (opField w = 0x10 → decode w = .ok .rtpReset) ∧
    (opField w = 0x11 → decode w = .ok (.rtpBuild (w.extractLsb' 32 8) (w.extractLsb' 0 32))) ∧
    (opField w = 0x12 → decode w = .ok .rtpParse) ∧
    (opField w = 0x13 → decode w = .ok .rtpHdr) ∧
    (opField w = 0x20 → decode w = .ok .txFrame) ∧
    (opField w = 0x21 → decode w = .ok .rxPkt)

/-- R63: "The rows are pairwise disjoint, so at most one row matches." -/
def Obligations.OpcodeRowsAreDisjoint : Prop :=
  opcodeMap.Pairwise (fun r r' => ∀ w : CommandWord, ¬ (r.selects w = true ∧ r'.selects w = true))

/-- R65: two words spell the same command exactly when they agree on the bits the command uses, and the assembler
writes zero in the others. -/
def Obligations.WordsDifferingInIgnoredFieldsAreOneCommand : Prop :=
  (∀ w w' : CommandWord, ∀ i : Instr, decode w = .ok i →
    (decode w' = .ok i ↔
      w &&& usedBits (opField w) = w' &&& usedBits (opField w))) ∧
  ∀ i : Instr, encode i &&& ~~~ usedBits (opField (encode i)) = 0

/-- R64: the opcodes R63 does not list are exactly the refused ones, and there are 246 of them. -/
def Obligations.UnlistedOpcodesAreReserved : Prop :=
  (∀ w : CommandWord, decode w = .error (.reservedOpcode (opField w)) ↔
    opField w ∉ ([0x01, 0x02, 0x03, 0x04, 0x10, 0x11, 0x12, 0x13, 0x20, 0x21] : List Byte)) ∧
  ((List.range 256).filter fun n =>
    (decode (formatC (BitVec.ofNat 8 n) 0 0)).toOption.isNone).length = 246

/-- R64, R182: a reserved opcode is answered `ILLEGAL` whatever else the word and `DIN` hold, and changes no state
element; the refusal carries no data (R181). The record of the run, its index (log entry 4) and the emptied response part
with status code 0 (log entry 7) are the model's. -/
def Obligations.ReservedOpcodeStepAnswersIllegal : Prop :=
  ∀ (s : State) (cw : CommandWord) (din : Buffer), currentAction s = some (.issue cw din) →
    opField cw ∉ ([0x01, 0x02, 0x03, 0x04, 0x10, 0x11, 0x12, 0x13, 0x20, 0x21] : List Byte) →
    step s = .next { s with
      din := [], response := ⟨.ok, 0, 0, []⟩, index := s.index + 1
      responses := s.responses ++ [⟨.illegal, 0, 0, []⟩] }

/-! ## The step and the run (spec/10_state.md, 20_memory.md, 70_reset_and_hazards.md) -/

/-- A step runs the decoded instruction: `DIN` is the command's own and `DOUT` empty at its start (R41), afterwards the
response joins the run's result, the buffers are gone and the index advances by one (R21, R41, R213). -/
def Obligations.StepRunsTheDecodedCommand : Prop :=
  ∀ (s : State) (cw : CommandWord) (din : Buffer) (i : Instr),
    currentAction s = some (.issue cw din) → decode cw = .ok i →
    step s =
      match exec i { s with din := din, response := ⟨.ok, 0, 0, []⟩ } with
      | .next t => .next { t with
          din := [], response := ⟨.ok, 0, 0, []⟩, index := t.index + 1, responses := t.responses ++ [t.response] }
      | .fault f => .fault f
      | .refused r => .refused r

/-- R195: with nothing to do the block is idle and holds its state. -/
def Obligations.ExhaustedProgramLeavesTheBlockIdle : Prop :=
  ∀ s : State, s.program.length ≤ s.index → step s = .next s

/-- R200, R202: a pulse of `rst` gives no response and leaves `VALID = 0`, the stream registers without a value, the
buffers and response parts empty or zero, whatever the state was. -/
def Obligations.HardwareResetStepClearsTheStream : Prop :=
  ∀ s : State, currentAction s = some .pulseRst →
    ∃ t, step s = .next t ∧ t.valid = false ∧ t.stream = none ∧ t.din = [] ∧ t.response = ⟨.ok, 0, 0, []⟩ ∧
      t.responses = s.responses ∧ t.config = s.config ∧ t.program = s.program ∧ t.index = s.index + 1 ∧
      t.entropy = s.entropy ∧ t.drawn = s.drawn

/-- R200, R32: what the hardware reset leaves. The statement says nothing of the bits that log entry 1 names. -/
def Obligations.ResetLeavesNoStream : Prop :=
  State.reset.valid = false ∧ State.reset.stream = none ∧ State.reset.din = [] ∧
    State.reset.response = ⟨.ok, 0, 0, []⟩

/-- R48, R212: no command faults, is left without a meaning, or waits: every step answers a next state, and a command
given advances the index by one and adds exactly one response (R21, R213). -/
def Obligations.EveryCommandCompletesWithOneResponse : Prop :=
  (∀ (i : Instr) (s : State), ∃ t, exec i s = .next t) ∧
  (∀ s : State, ∃ t, step s = .next t) ∧
  ∀ (s t : State) (cw : CommandWord) (din : Buffer), currentAction s = some (.issue cw din) → step s = .next t →
    t.index = s.index + 1 ∧ ∃ r, t.responses = s.responses ++ [r]

/-- R6, R41, R42, R68: the invariant of a run is kept by every step, from every state that has it. -/
def Obligations.StepKeepsTheRunInvariant : Prop :=
  ∀ s t : State, s.Inv → step s = .next t → t.Inv

/-- R6, R200: the state after the hardware reset has the invariant of a run. -/
def Obligations.ResetHasTheRunInvariant : Prop := State.reset.Inv

/-! ## The codec functions (spec/40_ulaw_codec.md) -/

/-- R101, R102, R103 (with the spec's decisions D8 and D9, log entries 8 and 9): the encoder's code, by its leading bit
and the four bits below it. -/
def Obligations.UlawEncFollowsTheAlgorithm : Prop :=
  (∀ x : Int, -32768 ≤ x → x ≤ 32767 →
    ∃ mag b e m s : Nat,
      s = (if x < 0 then 1 else 0) ∧
      mag = (if 32635 < x.natAbs then 32635 else x.natAbs) ∧ mag ≤ 32635 ∧
      b = mag + 132 ∧ 2 ^ (e + 7) ≤ b ∧ b < 2 ^ (e + 8) ∧ e ≤ 7 ∧
      m = b / 2 ^ (e + 3) % 16 ∧
      ulawEnc x = ~~~ BitVec.ofNat 8 (128 * s + 16 * e + m)) ∧
  ulawEnc (-32768) = 0x00 ∧ ulawEnc (-32768) = ulawEnc (-32635)

/-- R105, which the spec marks as derived from R101 and R102: which magnitudes fall in each segment, and the code at
both ends of each segment for both signs. -/
def Obligations.EncoderSegmentsAreTheTable : Prop :=
  (∀ x : Int, ∀ e : Nat, e ≤ 7 →
    (((~~~ ulawEnc x).extractLsb' 4 3).toNat = e ↔
      2 ^ (e + 7) - 132 ≤ min x.natAbs 32635 ∧ min x.natAbs 32635 ≤ 2 ^ (e + 8) - 133)) ∧
  (∀ x y : Int, ∀ e : Nat, x.natAbs ≤ 32635 → y.natAbs ≤ 32635 →
    ((~~~ ulawEnc x).extractLsb' 4 3).toNat = e → ((~~~ ulawEnc y).extractLsb' 4 3).toNat = e →
    (((~~~ ulawEnc x).extractLsb' 0 4).toNat = ((~~~ ulawEnc y).extractLsb' 0 4).toNat ↔
      (x.natAbs + 132) / 2 ^ (e + 3) = (y.natAbs + 132) / 2 ^ (e + 3))) ∧
  ∀ row ∈ ([ (0, 123, 0xFF, 0xF0, 0x70), (124, 379, 0xEF, 0xE0, 0x60), (380, 891, 0xDF, 0xD0, 0x50),
      (892, 1915, 0xCF, 0xC0, 0x40), (1916, 3963, 0xBF, 0xB0, 0x30), (3964, 8059, 0xAF, 0xA0, 0x20),
      (8060, 16251, 0x9F, 0x90, 0x10), (16252, 32635, 0x8F, 0x80, 0x00) ] : List (Nat × Nat × Byte × Byte × Byte)),
    ulawEnc row.1 = row.2.2.1 ∧ ulawEnc row.2.1 = row.2.2.2.1 ∧ ulawEnc (-row.2.1) = row.2.2.2.2 ∧
      ulawEnc (-(max row.1 1)) = row.2.2.1 ^^^ 0x80

/-- R106, which the spec marks as derived from R101 and R107: (a) the magnitude part is monotone, (b) negation flips
the sign bit of the code, (c) every code but 0x7F is a fixed point of decode then encode, (d) every code is reached by
a 16-bit sample: 0x7F by -1 to -3, any other code by the sample it decodes to. -/
def Obligations.EncoderProperties : Prop :=
  (∀ x y : Int, min x.natAbs 32635 ≤ min y.natAbs 32635 →
    ((~~~ ulawEnc x).extractLsb' 0 7).toNat ≤ ((~~~ ulawEnc y).extractLsb' 0 7).toNat) ∧
  (∀ x : Int, -32768 < x → x ≤ 32767 → x ≠ 0 → ulawEnc (-x) = ulawEnc x ^^^ 0x80) ∧
  (∀ u : Byte, u ≠ 0x7F → ulawEnc (ulawDec u) = u) ∧ ulawEnc (ulawDec 0x7F) = 0xFF ∧
  (∀ u : Byte, u ≠ 0x7F → ∃ x : Sample, signed16 x = ulawDec u ∧ ulawEnc (signed16 x) = u) ∧
  ∀ x : Int, -3 ≤ x → x ≤ -1 → ulawEnc x = 0x7F

/-- R107: the decoder's formula with its grouping, its range, and both codes of zero. -/
def Obligations.UlawDecFollowsTheFormula : Prop :=
  (∀ u : Byte, ∃ v s e m : Nat,
    v = 255 - u.toNat ∧ s = v / 128 ∧ e = v / 16 % 8 ∧ m = v % 16 ∧
    ulawDec u = (if s = 1 then -1 else 1) * ((((m * 8 + 132) * 2 ^ e : Nat) : Int) - 132)) ∧
  (∀ u : Byte, -32124 ≤ ulawDec u ∧ ulawDec u ≤ 32124 ∧ (twos16 (ulawDec u)).toInt = ulawDec u) ∧
  ulawDec 0x7F = 0 ∧ ulawDec 0xFF = 0

/-- R109, which the spec marks as derived from R107: codes 0x80 to 0xFF decode by the table, and codes 0x00 to 0x7F to
the negatives. -/
def Obligations.DecodeTableIsTheSpecs : Prop :=
  (List.range 128).map (fun n => ulawDec (BitVec.ofNat 8 (128 + n))) =
    ([ [32124, 31100, 30076, 29052, 28028, 27004, 25980, 24956, 23932, 22908, 21884, 20860, 19836, 18812, 17788, 16764],
        [15996, 15484, 14972, 14460, 13948, 13436, 12924, 12412, 11900, 11388, 10876, 10364, 9852, 9340, 8828, 8316],
        [7932, 7676, 7420, 7164, 6908, 6652, 6396, 6140, 5884, 5628, 5372, 5116, 4860, 4604, 4348, 4092],
        [3900, 3772, 3644, 3516, 3388, 3260, 3132, 3004, 2876, 2748, 2620, 2492, 2364, 2236, 2108, 1980],
        [1884, 1820, 1756, 1692, 1628, 1564, 1500, 1436, 1372, 1308, 1244, 1180, 1116, 1052, 988, 924],
        [876, 844, 812, 780, 748, 716, 684, 652, 620, 588, 556, 524, 492, 460, 428, 396],
        [372, 356, 340, 324, 308, 292, 276, 260, 244, 228, 212, 196, 180, 164, 148, 132],
        [120, 112, 104, 96, 88, 80, 72, 64, 56, 48, 40, 32, 24, 16, 8, 0] ] : List (List Int)).flatten ∧
  (List.range 128).map (fun n => ulawDec (BitVec.ofNat 8 n)) =
    (List.range 128).map (fun n => - ulawDec (BitVec.ofNat 8 (128 + n)))

/-- R110, which the spec marks as derived from R101, R105 and R107: the round trip comes back to the middle of the
cell, with the sample's sign or 0, within half the step of the sample's segment (644 and 643 beyond the clamp), and
samples -3 to 3 come back as 0. -/
def Obligations.RoundTripErrorIsWithinHalfAStep : Prop :=
  (∀ x : Int, ∀ e m : Nat, e = ((~~~ ulawEnc x).extractLsb' 4 3).toNat →
    m = ((~~~ ulawEnc x).extractLsb' 0 4).toNat →
    (ulawDec (ulawEnc x)).natAbs + 132 = 2 ^ (e + 7) + m * 2 ^ (e + 3) + 2 ^ (e + 2) ∧
    (0 ≤ x → 0 ≤ ulawDec (ulawEnc x)) ∧ (x ≤ 0 → ulawDec (ulawEnc x) ≤ 0) ∧
    (x.natAbs ≤ 32635 → (ulawDec (ulawEnc x) - x).natAbs ≤ 2 ^ (e + 2))) ∧
  (∀ x : Int, -32768 ≤ x → x ≤ 32767 → (ulawDec (ulawEnc x) - x).natAbs ≤ 644) ∧
  (ulawDec (ulawEnc (-32768)) - (-32768)).natAbs = 644 ∧ (ulawDec (ulawEnc 32767) - 32767).natAbs = 643 ∧
  ∀ x : Int, -3 ≤ x → x ≤ 3 → ulawDec (ulawEnc x) = 0

/-- R114, which the spec marks as derived from R101 and R107: every quantity of the codec stays in the width the rule
gives, so nothing overflows or wraps. -/
def Obligations.CodecQuantitiesStayInWidth : Prop :=
  (∀ x : Int, -32768 ≤ x → x ≤ 32767 → x.natAbs ≤ 32768 ∧ clampedMagnitude x < 2 ^ 15 ∧
    132 ≤ biasedMagnitude x ∧ biasedMagnitude x < 2 ^ 15 ∧ exponent x < 2 ^ 3 ∧ mantissa x < 2 ^ 4 ∧
    3 ≤ exponent x + 3 ∧ exponent x + 3 ≤ 10) ∧
  ∀ e m : Nat, e ≤ 7 → m ≤ 15 →
    132 ≤ ((m <<< 3) + 0x84) <<< e ∧ ((m <<< 3) + 0x84) <<< e ≤ 32256 ∧ decodedMagnitude e m ≤ 32124

/-! ## The codec commands -/

/-- R104: `ULAW.ENC`, whole: encoding, effect, frame, refusal, corner cases, worked example. -/
def Obligations.UlawEncCommand : Prop :=
  (∀ w : CommandWord, opField w = 0x01 → decode w = .ok (.ulawEnc (w.extractLsb' 0 16))) ∧
  (∀ (sample : Sample) (s : State), WithinCapacity s →
    exec (.ulawEnc sample) s =
      .next { s with response := ⟨.ok, (ulawEnc sample.toInt).zeroExtend 16, 0, []⟩ }) ∧
  (∀ (sample : Sample) (s : State), s.config.dinMax < s.din.length →
    exec (.ulawEnc sample) s = .next { s with response := ⟨.badlen, 0, 0, []⟩ }) ∧
  (∀ x : Int, 0 ≤ x → x ≤ 3 → ulawEnc x = 0xFF) ∧ (∀ x : Int, -3 ≤ x → x ≤ -1 → ulawEnc x = 0x7F) ∧
  (∀ x : Int, 32635 ≤ x → ulawEnc x = 0x80) ∧ (∀ x : Int, x ≤ -32635 → ulawEnc x = 0x00) ∧
  ∀ s : State, WithinCapacity s →
    exec (.ulawEnc 0x03E8) s = .next { s with response := ⟨.ok, 0x00CE, 0, []⟩ }

/-- R108: `ULAW.DEC`, whole. -/
def Obligations.UlawDecCommand : Prop :=
  (∀ w : CommandWord, opField w = 0x02 → decode w = .ok (.ulawDec (w.extractLsb' 0 8))) ∧
  (∀ (code : Byte) (s : State), WithinCapacity s →
    exec (.ulawDec code) s = .next { s with response := ⟨.ok, twos16 (ulawDec code), 0, []⟩ }) ∧
  (∀ (code : Byte) (s : State), s.config.dinMax < s.din.length →
    exec (.ulawDec code) s = .next { s with response := ⟨.badlen, 0, 0, []⟩ }) ∧
  twos16 (ulawDec 0xFF) = 0x0000 ∧ twos16 (ulawDec 0x7F) = 0x0000 ∧ twos16 (ulawDec 0x80) = 0x7D7C ∧
  twos16 (ulawDec 0x00) = 0x8284 ∧ (∀ u : Byte, -32124 ≤ ulawDec u ∧ ulawDec u ≤ 32124) ∧
  ∀ s : State, WithinCapacity s →
    exec (.ulawDec 0xCE) s = .next { s with response := ⟨.ok, 0x03DC, 0, []⟩ }

/-- R111: `ULAW.ENCB`, whole: one code per whole pair, a trailing odd byte ignored. -/
def Obligations.UlawEncbCommand : Prop :=
  (∀ w : CommandWord, opField w = 0x03 → decode w = .ok .ulawEncb) ∧
  (∀ s : State, WithinCapacity s →
    ∃ dout : Buffer, exec .ulawEncb s = .next { s with response := ⟨.ok, 0, 0, dout⟩ } ∧
      dout.length = s.din.length / 2 ∧
      ∀ (i : Nat) (b0 b1 : Byte), s.din[2 * i]? = some b0 → s.din[2 * i + 1]? = some b1 →
        dout[i]? = some (ulawEnc (BitVec.ofNat 16 (b0.toNat + 256 * b1.toNat)).toInt)) ∧
  (∀ s : State, s.config.dinMax < s.din.length →
    exec .ulawEncb s = .next { s with response := ⟨.badlen, 0, 0, []⟩ }) ∧
  (∀ s : State, WithinCapacity s → s.din = List.replicate 320 0 →
    exec .ulawEncb s = .next { s with response := ⟨.ok, 0, 0, List.replicate 160 0xFF⟩ }) ∧
  ∀ s : State, WithinCapacity s → s.din = [0xE8, 0x03, 0x18, 0xFC, 0x55] →
    exec .ulawEncb s = .next { s with response := ⟨.ok, 0, 0, [0xCE, 0x4E]⟩ }

/-- R112: `ULAW.DECB`, whole: two little-endian bytes per code. -/
def Obligations.UlawDecbCommand : Prop :=
  (∀ w : CommandWord, opField w = 0x04 → decode w = .ok .ulawDecb) ∧
  (∀ s : State, WithinCapacity s →
    ∃ dout : Buffer, exec .ulawDecb s = .next { s with response := ⟨.ok, 0, 0, dout⟩ } ∧
      dout.length = 2 * s.din.length ∧
      ∀ (i : Nat) (u : Byte), s.din[i]? = some u →
        dout[2 * i]? = some ((twos16 (ulawDec u)).extractLsb' 0 8) ∧
        dout[2 * i + 1]? = some ((twos16 (ulawDec u)).extractLsb' 8 8)) ∧
  (∀ s : State, s.config.dinMax < s.din.length →
    exec .ulawDecb s = .next { s with response := ⟨.badlen, 0, 0, []⟩ }) ∧
  (∀ s : State, WithinCapacity s → s.din = List.replicate 160 0xFF →
    exec .ulawDecb s = .next { s with response := ⟨.ok, 0, 0, List.replicate 320 0⟩ }) ∧
  ∀ s : State, WithinCapacity s → s.din = [0xCE, 0x4E, 0x80] →
    exec .ulawDecb s = .next { s with response := ⟨.ok, 0, 0, [0xDC, 0x03, 0x24, 0xFC, 0x7C, 0x7D]⟩ }

/-- R113, which the spec marks as derived from R106, R111 and R112: decoding a μ-law buffer and encoding the result
gives it back, each 0x7F as 0xFF. The decoded buffer is twice as long, so it is within capacity as a premise (R42). -/
def Obligations.EncodeAfterDecodeRestoresTheCodes : Prop :=
  ∀ s : State, 2 * s.din.length ≤ s.config.dinMax →
    ∃ t r, exec .ulawDecb s = .next t ∧ exec .ulawEncb { t with din := t.response.dout } = .next r ∧
      r.response.status = .ok ∧ r.response.dout = s.din.map (fun u => if u = 0x7F then 0xFF else u)

/-- R113, which the spec marks as derived from R110, R111 and R112: encoding a PCM buffer and decoding the result
gives `2 * floor(L/2)` bytes, each sample within the bound of R110 of its original. -/
def Obligations.DecodeAfterEncodeStaysWithinTheBound : Prop :=
  ∀ s : State, WithinCapacity s →
    ∃ t r, exec .ulawEncb s = .next t ∧ exec .ulawDecb { t with din := t.response.dout } = .next r ∧
      r.response.status = .ok ∧ r.response.dout.length = 2 * (s.din.length / 2) ∧
      ∀ i < s.din.length / 2, sampleAt r.response.dout i = ulawDec (ulawEnc (sampleAt s.din i)) ∧
        ((sampleAt s.din i).natAbs ≤ 32635 →
          (sampleAt r.response.dout i - sampleAt s.din i).natAbs ≤ 2 ^ (exponent (sampleAt s.din i) + 2)) ∧
        (sampleAt r.response.dout i - sampleAt s.din i).natAbs ≤ 644

/-! ## The framer (spec/41_rtp_framer.md) -/

/-- R70: the serialized header, byte by byte and bit by bit; R72 (the spec's decision D12, log entry 10): bit 7 of the
operand cannot reach the wire. -/
def Obligations.HeaderLayoutIsTheWireFormat : Prop :=
  ∀ (pt : Byte) (seq : BitVec 16) (ts ssrc : BitVec 32), ∃ b0 b1 : Byte,
    rtpHeader pt seq ts ssrc =
      [b0, b1, seq.extractLsb' 8 8, seq.extractLsb' 0 8,
        ts.extractLsb' 24 8, ts.extractLsb' 16 8, ts.extractLsb' 8 8, ts.extractLsb' 0 8,
        ssrc.extractLsb' 24 8, ssrc.extractLsb' 16 8, ssrc.extractLsb' 8 8, ssrc.extractLsb' 0 8] ∧
    b0.extractLsb' 6 2 = (2 : BitVec 2) ∧ b0.extractLsb' 0 6 = (0 : BitVec 6) ∧
    b1.getLsbD 7 = false ∧ b1.extractLsb' 0 7 = pt.extractLsb' 0 7 ∧
    (pt.toNat < 128 → b1 = pt) ∧ (rtpHeader pt seq ts ssrc).length = 12

/-- R131: `RTP.RESET`, whole: the draw splits into `SEQ` and `SSRC` (R84), the timestamp starts at 0, the flag is set; a
stated draw (R213) is the one taken, and a refused reset takes none (R181). That the stated draws are a list in State and
that a counter goes up with each draw is the model's choice (log entry 2). -/
def Obligations.RtpResetCommand : Prop :=
  (∀ w : CommandWord, opField w = 0x10 → decode w = .ok .rtpReset) ∧
  (∀ s : State, WithinCapacity s →
    exec .rtpReset s = .next { s with
      valid := true, seq := s.rnd.extractLsb' 32 16, ts := 0, ssrc := s.rnd.extractLsb' 0 32
      entropy := s.entropy.tail, drawn := s.drawn + 1, response := ⟨.ok, 0, 0, []⟩ }) ∧
  (∀ (s : State) (d : Draw) (ds : List Draw), s.entropy = d :: ds → s.rnd = d) ∧
  (∀ s : State, s.config.dinMax < s.din.length →
    exec .rtpReset s = .next { s with response := ⟨.badlen, 0, 0, []⟩ }) ∧
  ∀ (s : State) (ds : List Draw), WithinCapacity s → s.entropy = 0x1234DEADBEEF :: ds →
    exec .rtpReset s = .next { s with
      valid := true, seq := 0x1234, ts := 0, ssrc := 0xDEADBEEF
      entropy := ds, drawn := s.drawn + 1, response := ⟨.ok, 0, 0, []⟩ }

/-- R134: `RTP.BUILD`, whole: the 12 header bytes of the values before the command, the payload unchanged, `SEQ` and
`TS` advanced modulo their widths; `BADLEN` before `NOSTREAM`. -/
def Obligations.RtpBuildCommand : Prop :=
  (∀ w : CommandWord, opField w = 0x11 → decode w = .ok (.rtpBuild (w.extractLsb' 32 8) (w.extractLsb' 0 32))) ∧
  (∀ (pt : Byte) (sc : BitVec 32) (s : State), WithinCapacity s → s.valid = true →
    exec (.rtpBuild pt sc) s = .next { s with
      seq := s.seq + 1, ts := s.ts + sc
      response := ⟨.ok, 0, 0,
        [0x80, pt &&& 0x7F, s.seq.extractLsb' 8 8, s.seq.extractLsb' 0 8,
          s.ts.extractLsb' 24 8, s.ts.extractLsb' 16 8, s.ts.extractLsb' 8 8, s.ts.extractLsb' 0 8,
          s.ssrc.extractLsb' 24 8, s.ssrc.extractLsb' 16 8, s.ssrc.extractLsb' 8 8, s.ssrc.extractLsb' 0 8]
          ++ s.din⟩ }) ∧
  (∀ (pt : Byte) (sc : BitVec 32) (s : State), s.config.dinMax < s.din.length →
    exec (.rtpBuild pt sc) s = .next { s with response := ⟨.badlen, 0, 0, []⟩ }) ∧
  (∀ (pt : Byte) (sc : BitVec 32) (s : State), WithinCapacity s → s.valid = false →
    exec (.rtpBuild pt sc) s = .next { s with response := ⟨.nostream, 0, 0, []⟩ }) ∧
  ∀ s : State, WithinCapacity s → s.valid = true → s.seq = 0xFFFF → s.ts = 0 → s.ssrc = 1 → s.din = [0xFF, 0x7F] →
    exec (.rtpBuild 0 160) s = .next { s with
      seq := 0, ts := 0xA0
      response := ⟨.ok, 0, 0, [0x80, 0x00, 0xFF, 0xFF, 0, 0, 0, 0, 0, 0, 0, 0x01, 0xFF, 0x7F]⟩ }

/-- R136: a built packet carries the values `SEQ` and `TS` held before the command, so the first packet after
`RTP.RESET` carries the drawn sequence number and timestamp 0. -/
def Obligations.FirstPacketAfterStreamResetCarriesTheDraw : Prop :=
  (∀ (pt : Byte) (sc : BitVec 32) (s : State), WithinCapacity s → s.valid = true →
    ∃ t, exec (.rtpBuild pt sc) s = .next t ∧
      (t.response.dout.drop 2).take 6 = bytesBe16 s.seq ++ bytesBe32 s.ts ∧
      t.seq = s.seq + 1 ∧ t.ts = s.ts + sc) ∧
  ∀ (pt : Byte) (sc : BitVec 32) (s : State), WithinCapacity s →
    ∃ t r, exec .rtpReset s = .next t ∧ exec (.rtpBuild pt sc) t = .next r ∧ r.response.status = .ok ∧
      (r.response.dout.drop 2).take 6 = bytesBe16 (s.rnd.extractLsb' 32 16) ++ bytesBe32 0

/-- R201, which the spec marks as derived from R25, R27 and R184: straight after a hardware reset the seven stateless
commands answer what they answer in any other state, and `RTP.RESET` is accepted; `RTP.BUILD` and `TX.FRAME` are
refused with `NOSTREAM` until then, and no longer. The state after the reset stands with any `DIN` of the default
capacity (log entry 3). -/
def Obligations.AfterResetOnlyTheBuildsAreRefused : Prop :=
  ∀ din : Buffer, din.length ≤ 2060 →
    (∀ i : Instr, statelessCommand i = true → (i = .rtpHdr → 12 ≤ din.length) →
      ∃ t, exec i { State.reset with din := din } = .next t ∧ t.response.status = .ok ∧
        ∀ s : State, s.din = din → WithinCapacity s → ∃ r, exec i s = .next r ∧ r.response = t.response) ∧
    (∀ i : Instr, ((∃ pt sc, i = .rtpBuild pt sc) ∨ i = .txFrame ∧ din.length ≤ 320) →
      ∃ t u r, exec i { State.reset with din := din } = .next t ∧ t.response.status = .nostream ∧
        exec .rtpReset { State.reset with din := din } = .next u ∧ u.response.status = .ok ∧
        exec i u = .next r ∧ r.response.status = .ok)

/-- R138: `RTP.PARSE`, whole: the bytes from index 12 on, none if there are no more than 12. -/
def Obligations.RtpParseCommand : Prop :=
  (∀ w : CommandWord, opField w = 0x12 → decode w = .ok .rtpParse) ∧
  (∀ s : State, WithinCapacity s →
    ∃ dout : Buffer, exec .rtpParse s = .next { s with response := ⟨.ok, 0, 0, dout⟩ } ∧
      (s.din.length ≤ 12 → dout = []) ∧
      (12 < s.din.length → dout.length = s.din.length - 12 ∧ ∀ i < s.din.length - 12, dout[i]? = s.din[12 + i]?)) ∧
  (∀ s : State, s.config.dinMax < s.din.length →
    exec .rtpParse s = .next { s with response := ⟨.badlen, 0, 0, []⟩ }) ∧
  (∀ s : State, WithinCapacity s →
    s.din = [0x80, 0x00, 0x12, 0x34, 0, 0, 0, 0, 0xDE, 0xAD, 0xBE, 0xEF, 0xAA, 0xBB] →
    exec .rtpParse s = .next { s with response := ⟨.ok, 0, 0, [0xAA, 0xBB]⟩ }) ∧
  ∀ s : State, WithinCapacity s → s.din = [0x80, 0x00, 0x12, 0x34] →
    exec .rtpParse s = .next { s with response := ⟨.ok, 0, 0, []⟩ }

/-- R140: `RTP.HDR`, whole: byte `k` of the packet is byte `k` of `HDR` from its most significant end; fewer than 12
bytes are refused. -/
def Obligations.RtpHdrCommand : Prop :=
  (∀ w : CommandWord, opField w = 0x13 → decode w = .ok .rtpHdr) ∧
  (∀ s : State, WithinCapacity s → 12 ≤ s.din.length →
    ∃ h : HeaderValue, exec .rtpHdr s = .next { s with response := ⟨.ok, 0, h, []⟩ } ∧
      ∀ k < 12, s.din[k]? = some (h.extractLsb' (8 * (11 - k)) 8)) ∧
  (∀ s : State, s.din.length < 12 → exec .rtpHdr s = .next { s with response := ⟨.badlen, 0, 0, []⟩ }) ∧
  (∀ s : State, s.config.dinMax < s.din.length →
    exec .rtpHdr s = .next { s with response := ⟨.badlen, 0, 0, []⟩ }) ∧
  ∀ s : State, WithinCapacity s →
    s.din = [0x80, 0x60, 0, 0x01, 0, 0, 0, 0x9F, 0, 0, 0, 0x01, 0x01, 0x02, 0x03] →
    exec .rtpHdr s = .next { s with response := ⟨.ok, 0, 0x806000010000009F00000001, []⟩ }

/-- R139, which the spec marks as derived from R134 and R138, with the built packet within the capacity of `RTP.PARSE`
(R42): parsing a built packet gives the payload. -/
def Obligations.ParseUndoesBuild : Prop :=
  ∀ (pt : Byte) (sc : BitVec 32) (s : State), s.valid = true → 12 + s.din.length ≤ s.config.dinMax →
    ∃ t r, exec (.rtpBuild pt sc) s = .next t ∧ exec .rtpParse { t with din := t.response.dout } = .next r ∧
      r.response.status = .ok ∧ r.response.dout = s.din

/-- R141, which the spec marks as derived from R133, R134 and R140, with the built packet within the capacity of
`RTP.HDR` (R42): the header read back carries what was set, the payload type modulo 128. -/
def Obligations.HeaderReadBackGivesWhatWasSet : Prop :=
  ∀ (pt : Byte) (sc : BitVec 32) (s : State), s.valid = true → 12 + s.din.length ≤ s.config.dinMax →
    ∃ t r, exec (.rtpBuild pt sc) s = .next t ∧ exec .rtpHdr { t with din := t.response.dout } = .next r ∧
      r.response.status = .ok ∧ hdrVersion r.response.hdr = 2 ∧ hdrFlags r.response.hdr = 0 ∧
      hdrMarker r.response.hdr = false ∧ (hdrPayloadType r.response.hdr).toNat = pt.toNat % 128 ∧
      hdrSequence r.response.hdr = s.seq ∧ hdrTimestamp r.response.hdr = s.ts ∧ hdrSsrc r.response.hdr = s.ssrc

/-- R75: `RTP.PARSE` and `RX.PKT` look at no header bit: packets of one length that agree from byte 12 on get the same
answer. -/
def Obligations.HeaderBitsDoNotReachTheReceivePath : Prop :=
  ∀ (s : State) (p q : Buffer), p.length = q.length → p.drop 12 = q.drop 12 →
    ∀ i ∈ [Instr.rtpParse, Instr.rxPkt], ∃ t r,
      exec i { s with din := p } = .next t ∧ exec i { s with din := q } = .next r ∧ t.response = r.response

/-! ## The frame paths (spec/42_frame_path.md) -/

/-- R160: `TX.FRAME`, whole: the 172-byte datagram, the advance by 160 samples, the short frame, the refusals in their
order. -/
def Obligations.TxFrameCommand : Prop :=
  (∀ w : CommandWord, opField w = 0x20 → decode w = .ok .txFrame) ∧
  (∀ s : State, WithinCapacity s → s.valid = true → s.din.length = 320 →
    ∃ codes : Buffer,
      exec .txFrame s = .next { s with
        seq := s.seq + 1, ts := s.ts + 160
        response := ⟨.ok, 0, 0,
          [0x80, 0x00, s.seq.extractLsb' 8 8, s.seq.extractLsb' 0 8,
            s.ts.extractLsb' 24 8, s.ts.extractLsb' 16 8, s.ts.extractLsb' 8 8, s.ts.extractLsb' 0 8,
            s.ssrc.extractLsb' 24 8, s.ssrc.extractLsb' 16 8, s.ssrc.extractLsb' 8 8, s.ssrc.extractLsb' 0 8]
            ++ codes⟩ } ∧
      codes.length = 160 ∧ ∀ i < 160, codes[i]? = some (ulawEnc (sampleAt s.din i))) ∧
  (∀ s : State, s.config.dinMax < s.din.length ∨ 320 < s.din.length →
    exec .txFrame s = .next { s with response := ⟨.badlen, 0, 0, []⟩ }) ∧
  (∀ s : State, WithinCapacity s → s.din.length ≤ 320 → s.valid = false →
    exec .txFrame s = .next { s with response := ⟨.nostream, 0, 0, []⟩ }) ∧
  (∀ s : State, WithinCapacity s → s.din.length < 320 → s.valid = true →
    exec .txFrame s = .next { s with response := ⟨.ok, 0, 0, []⟩ }) ∧
  ∀ s : State, WithinCapacity s → s.valid = true → s.seq = 0x1234 → s.ts = 0 → s.ssrc = 0xDEADBEEF →
    s.din = List.replicate 320 0 →
    exec .txFrame s = .next { s with
      seq := 0x1235, ts := 0xA0
      response := ⟨.ok, 0, 0,
        [0x80, 0x00, 0x12, 0x34, 0, 0, 0, 0, 0xDE, 0xAD, 0xBE, 0xEF] ++ List.replicate 160 0xFF⟩ }

/-- R161: a short frame is dropped in silence: no packet, no sequence number used, no register touched. -/
def Obligations.ShortFrameBuildsNothing : Prop :=
  ∀ s : State, WithinCapacity s → s.din.length < 320 → s.valid = true →
    ∃ t, exec .txFrame s = .next t ∧ t.response = ⟨.ok, 0, 0, []⟩ ∧
      t.seq = s.seq ∧ t.ts = s.ts ∧ t.ssrc = s.ssrc ∧ t.valid = s.valid

/-- R162, which the spec marks as derived from R160, R111 and R134: `TX.FRAME` has exactly the response and the state
change of `ULAW.ENCB` followed by `RTP.BUILD pt=0, sc=160` on its output. -/
def Obligations.TxFrameIsEncodeThenBuild : Prop :=
  ∀ s : State, WithinCapacity s → s.valid = true → s.din.length = 320 →
    ∃ t r, exec .ulawEncb s = .next t ∧ t.response.dout.length = 160 ∧
      exec (.rtpBuild 0 160) { s with din := t.response.dout } = .next r ∧
      exec .txFrame s = .next { r with din := s.din }

/-- R163: `RX.PKT`, whole: every payload byte decoded to two little-endian bytes. -/
def Obligations.RxPktCommand : Prop :=
  (∀ w : CommandWord, opField w = 0x21 → decode w = .ok .rxPkt) ∧
  (∀ s : State, WithinCapacity s →
    ∃ dout : Buffer, exec .rxPkt s = .next { s with response := ⟨.ok, 0, 0, dout⟩ } ∧
      (s.din.length ≤ 12 → dout = []) ∧
      (12 < s.din.length → dout.length = 2 * (s.din.length - 12) ∧
        ∀ (i : Nat) (u : Byte), s.din[12 + i]? = some u →
          dout[2 * i]? = some ((twos16 (ulawDec u)).extractLsb' 0 8) ∧
          dout[2 * i + 1]? = some ((twos16 (ulawDec u)).extractLsb' 8 8))) ∧
  (∀ s : State, s.config.dinMax < s.din.length →
    exec .rxPkt s = .next { s with response := ⟨.badlen, 0, 0, []⟩ }) ∧
  ∀ s : State, WithinCapacity s →
    s.din = [0x80, 0x00, 0x12, 0x34, 0, 0, 0, 0, 0xDE, 0xAD, 0xBE, 0xEF, 0xCE, 0x4E] →
    exec .rxPkt s = .next { s with response := ⟨.ok, 0, 0, [0xDC, 0x03, 0x24, 0xFC]⟩ }

/-- R164, which the spec marks as derived from R163, R112 and R138: `RX.PKT` is `RTP.PARSE` followed by `ULAW.DECB` on
its output. -/
def Obligations.RxPktIsParseThenDecode : Prop :=
  ∀ s : State, WithinCapacity s →
    ∃ t r, exec .rtpParse s = .next t ∧ exec .ulawDecb { s with din := t.response.dout } = .next r ∧
      exec .rxPkt s = .next { r with din := s.din }

/-- R166: the end-to-end scenario of silence: 160 codes of 0xFF, a 172-byte datagram that begins 80 00, and all-zero PCM
back. -/
def Obligations.SilenceGoesThroughEndToEnd : Prop :=
  ∀ s : State, WithinCapacity s → s.valid = true → s.din = List.replicate 320 0 →
    ∃ t u r, exec .ulawEncb s = .next t ∧ t.response.dout = List.replicate 160 0xFF ∧
      exec .txFrame s = .next u ∧ u.response.dout.length = 172 ∧ u.response.dout.take 2 = [0x80, 0x00] ∧
      u.response.dout.drop 12 = t.response.dout ∧
      exec .rxPkt { u with din := u.response.dout } = .next r ∧ r.response.dout = List.replicate 320 0

/-- R167, which the spec marks as derived from R160, R163 and R110: what `TX.FRAME` sends, `RX.PKT` turns back into
the decode of the encode of each sample, within the bound of R110, whatever the stream registers hold. -/
def Obligations.LoopBackReturnsTheQuantizedFrame : Prop :=
  ∀ s : State, WithinCapacity s → s.valid = true → s.din.length = 320 →
    ∃ t r, exec .txFrame s = .next t ∧ exec .rxPkt { t with din := t.response.dout } = .next r ∧
      r.response.status = .ok ∧ r.response.dout.length = 320 ∧
      ∀ i < 160, sampleAt r.response.dout i = ulawDec (ulawEnc (sampleAt s.din i)) ∧
        ((sampleAt s.din i).natAbs ≤ 32635 →
          (sampleAt r.response.dout i - sampleAt s.din i).natAbs ≤ 2 ^ (exponent (sampleAt s.din i) + 2)) ∧
        (sampleAt r.response.dout i - sampleAt s.din i).natAbs ≤ 644

/-! ## Refusals (spec/60_exceptions.md) -/

/-- R181: a refused command writes no register and no flag, takes no draw, leaves nothing but the one response, and that
response carries no data; the next command runs as if the refused one had never been issued. The step clause also speaks of
the record of the run and its index (log entry 4) and of the emptied response part with status code 0 (log entry 7), which
are the model's. -/
def Obligations.RefusalsChangeNothingButTheResponse : Prop :=
  (∀ (i : Instr) (s t : State), exec i s = .next t → t.response.status ≠ .ok →
    t = { s with response := ⟨t.response.status, 0, 0, []⟩ }) ∧
  (∀ (s t : State) (cw : CommandWord) (din : Buffer) (r : Response), currentAction s = some (.issue cw din) →
    step s = .next t → t.responses = s.responses ++ [r] → r.status ≠ .ok →
    r = ⟨r.status, 0, 0, []⟩ ∧ t = { s with
      din := [], response := ⟨.ok, 0, 0, []⟩, index := s.index + 1, responses := s.responses ++ [r] }) ∧
  ∀ (i : Instr) (s : State) (r : Response), exec i { s with response := r } = exec i s

/-- R183: `BADLEN` is raised in exactly three cases. -/
def Obligations.BadlenIsRaisedInExactlyThreeCases : Prop :=
  ∀ (i : Instr) (s : State), ∃ t, exec i s = .next t ∧
    (t.response.status = .badlen ↔
      s.config.dinMax < s.din.length ∨
      (i = .txFrame ∧ 320 < s.din.length ∧ s.din.length ≤ s.config.dinMax) ∨
      (i = .rtpHdr ∧ s.din.length < 12))

/-- R184, with the order of R185: `NOSTREAM` is raised by a build with `VALID = 0` exactly when no `BADLEN` cause comes
before it; no command with a listed opcode answers `ILLEGAL`. -/
def Obligations.NostreamComesAfterEveryLengthCheck : Prop :=
  ∀ (i : Instr) (s : State), ∃ t, exec i s = .next t ∧ t.response.status ≠ .illegal ∧
    (t.response.status = .nostream ↔
      s.valid = false ∧ WithinCapacity s ∧
        ((∃ pt sc, i = .rtpBuild pt sc) ∨ (i = .txFrame ∧ s.din.length ≤ 320)))

/-- R185: the status reported is the first cause in the order ILLEGAL, BADLEN (capacity, then the command's own length
check), NOSTREAM; the silent drops come last and give `OK`. -/
def Obligations.StatusIsTheFirstCauseInOrder : Prop :=
  ∀ (s : State) (cw : CommandWord) (din : Buffer), currentAction s = some (.issue cw din) →
    ∃ (t : State) (r : Response), step s = .next t ∧ t.responses = s.responses ++ [r] ∧
      r.status =
        if opField cw ∉ ([0x01, 0x02, 0x03, 0x04, 0x10, 0x11, 0x12, 0x13, 0x20, 0x21] : List Byte) then .illegal
        else if s.config.dinMax < din.length then .badlen
        else if (opField cw = 0x20 ∧ 320 < din.length) ∨ (opField cw = 0x13 ∧ din.length < 12) then .badlen
        else if (opField cw = 0x11 ∨ opField cw = 0x20) ∧ s.valid = false then .nostream
        else .ok

/-- R180: the 2-bit codes of the four statuses, and no two of them are one. -/
def Obligations.StatusCodesAreTheTable : Prop :=
  Status.ok.code = 0 ∧ Status.illegal.code = 1 ∧ Status.badlen.code = 2 ∧ Status.nostream.code = 3 ∧
    ∀ a b : Status, a.code = b.code → a = b

/-! ## Whole-machine rules (spec/10_state.md, 20_memory.md, 70_reset_and_hazards.md) -/

/-- R27, which the spec marks as derived from R22 to R25 and the command rules: the access table: which command writes
which state element, a refused command none. -/
def Obligations.AccessTableHolds : Prop :=
  ∀ (i : Instr) (s t : State), exec i s = .next t →
    ((statelessCommand i = true ∨ t.response.status ≠ .ok) →
      t.valid = s.valid ∧ t.seq = s.seq ∧ t.ts = s.ts ∧ t.ssrc = s.ssrc) ∧
    (i = .rtpReset → t.response.status = .ok →
      t.valid = true ∧ t.seq = s.rnd.extractLsb' 32 16 ∧ t.ts = 0 ∧ t.ssrc = s.rnd.extractLsb' 0 32) ∧
    (∀ pt sc, i = .rtpBuild pt sc → t.response.status = .ok →
      t.valid = s.valid ∧ t.seq = s.seq + 1 ∧ t.ts = s.ts + sc ∧ t.ssrc = s.ssrc) ∧
    (i = .txFrame → t.response.status = .ok → t.response.dout ≠ [] →
      t.valid = s.valid ∧ t.seq = s.seq + 1 ∧ t.ts = s.ts + 160 ∧ t.ssrc = s.ssrc) ∧
    (i = .txFrame → t.response.dout = [] →
      t.valid = s.valid ∧ t.seq = s.seq ∧ t.ts = s.ts ∧ t.ssrc = s.ssrc) ∧
    t.din = s.din ∧ t.config = s.config ∧ t.program = s.program ∧ t.index = s.index ∧ t.responses = s.responses ∧
    (i ≠ .rtpReset → t.entropy = s.entropy ∧ t.drawn = s.drawn)

/-- R24, R25: over a whole step, only `RTP.RESET` sets `VALID` or writes `SSRC` of a valid stream, and only `rst` clears
`VALID`. -/
def Obligations.OnlyResetsMoveValidAndSsrc : Prop :=
  ∀ s t : State, step s = .next t →
    (s.valid = true → t.valid = false → currentAction s = some .pulseRst) ∧
    ((s.valid = false ∧ t.valid = true ∨ (t.valid = true ∧ t.ssrc ≠ s.ssrc)) →
      ∃ cw din, currentAction s = some (.issue cw din) ∧ decode cw = .ok .rtpReset ∧ din.length ≤ s.config.dinMax)

/-- R50: the response of a stateless command is a function of its command word and `DIN` alone (and of `DIN_MAX`). -/
def Obligations.StatelessCommandsArePureFunctions : Prop :=
  ∀ (i : Instr) (s s' : State), statelessCommand i = true → s.din = s'.din → s.config = s'.config →
    ∃ t t', exec i s = .next t ∧ exec i s' = .next t' ∧ t.response = t'.response ∧
      t = { s with response := t.response } ∧ t' = { s' with response := t'.response }

/-- R32, R41: a command sees its own `DIN`, the parameter, the values a reader of the stream registers gets and the
next draw, and nothing else: no earlier response or buffer, no program, and not the bits that stand in `SEQ`, `TS` and
`SSRC` while they hold no value (log entry 1). -/
def Obligations.CommandSeesOnlyItsOwnInputs : Prop :=
  ∀ (i : Instr) (s s' : State), s.din = s'.din → s.config = s'.config → s.stream = s'.stream → s.rnd = s'.rnd →
    ∃ t t', exec i s = .next t ∧ exec i s' = .next t' ∧ t.response = t'.response ∧ t.stream = t'.stream

/-- R28, which the spec marks as derived from R22, R23, R24 and R134: along any run of commands without `RTP.RESET`,
the k-th packet built carries the starting sequence number plus k modulo 65536, the starting timestamp plus the sample
counts of the packets before it modulo 2^32, and the one SSRC; the registers end where the packets left them. -/
def Obligations.PacketsOfARunCarryConsecutiveCounters : Prop :=
  ∀ (s : State) (actions : List HostAction),
    s.program.drop s.index = actions →
    (∀ a ∈ actions, ∃ cw din, a = .issue cw din ∧ decode cw ≠ .ok .rtpReset) →
    ∃ (t : State) (given : List Response), core.run actions.length s = .next t ∧
      t.responses = s.responses ++ given ∧ given.length = actions.length ∧
      ∃ packets : List (BitVec 32 × Buffer), packets = (actions.zip given).filterMap packetBuilt ∧
        t.valid = s.valid ∧ t.ssrc = s.ssrc ∧ t.seq = s.seq + BitVec.ofNat 16 packets.length ∧
        t.ts = s.ts + (packets.map Prod.fst).sum ∧
        ∀ (k : Nat) (c : BitVec 32) (d : Buffer), packets[k]? = some (c, d) →
          (d.drop 2).take 10 = bytesBe16 (s.seq + BitVec.ofNat 16 k) ++
            bytesBe32 (s.ts + ((packets.take k).map Prod.fst).sum) ++ bytesBe32 s.ssrc

/-- R207, which the spec marks as derived from R27 and R53: stateless commands interleaved with the others disturb
nothing: taking them out of a program leaves the same stream and gives the other commands the same responses. -/
def Obligations.ReceivePathDoesNotDisturbTheSendPath : Prop :=
  ∀ (s : State) (p : List HostAction), (∀ a ∈ p, ∃ cw din, a = .issue cw din) →
    ∃ t r : State,
      core.run p.length { s with program := p, index := 0, responses := [] } = .next t ∧
      core.run (p.filter (fun a => ! statelessAction a)).length
        { s with program := p.filter (fun a => ! statelessAction a), index := 0, responses := [] } = .next r ∧
      t.valid = r.valid ∧ t.seq = r.seq ∧ t.ts = r.ts ∧ t.ssrc = r.ssrc ∧ t.entropy = r.entropy ∧
      ((p.zip t.responses).filter (fun q => ! statelessAction q.1)).map Prod.snd = r.responses

/-- R22, R23, R24 and R136 as one step: from every state, a command other than `RTP.RESET` gives one response and leaves
`VALID` and `SSRC`; if it built a packet, `SEQ` goes up by 1 and `TS` by the packet's sample count, and the packet carries
the values from before the step; if it built none, `SEQ` and `TS` stay. The record of responses is the model's (log
entry 4). -/
def Obligations.StepAdvancesTheStreamByThePacketBuilt : Prop :=
  ∀ (s t : State) (cw : CommandWord) (din : Buffer), currentAction s = some (.issue cw din) →
    decode cw ≠ .ok .rtpReset → step s = .next t →
    ∃ r : Response, t.responses = s.responses ++ [r] ∧ t.valid = s.valid ∧ t.ssrc = s.ssrc ∧
      (packetBuilt (.issue cw din, r) = none → t.seq = s.seq ∧ t.ts = s.ts) ∧
      ∀ (c : BitVec 32) (d : Buffer), packetBuilt (.issue cw din, r) = some (c, d) →
        t.seq = s.seq + 1 ∧ t.ts = s.ts + c ∧
        (d.drop 2).take 10 = bytesBe16 s.seq ++ bytesBe32 s.ts ++ bytesBe32 s.ssrc
end

