-- ==== Sys2Proof/Laws/State.lean ====
section
/-! SUPPORT. One lemma per field per update of the state, each true by unfolding the update once. -/

namespace Sys2Proof.Machine

/-! ## `respond` -/

@[simp] theorem respond_valid (r : Response) (s : State) : (respond r s).valid = s.valid := rfl
@[simp] theorem respond_seq (r : Response) (s : State) : (respond r s).seq = s.seq := rfl
@[simp] theorem respond_ts (r : Response) (s : State) : (respond r s).ts = s.ts := rfl
@[simp] theorem respond_ssrc (r : Response) (s : State) : (respond r s).ssrc = s.ssrc := rfl
@[simp] theorem respond_din (r : Response) (s : State) : (respond r s).din = s.din := rfl
@[simp] theorem respond_response (r : Response) (s : State) : (respond r s).response = r := rfl
@[simp] theorem respond_config (r : Response) (s : State) : (respond r s).config = s.config := rfl
@[simp] theorem respond_program (r : Response) (s : State) : (respond r s).program = s.program := rfl
@[simp] theorem respond_index (r : Response) (s : State) : (respond r s).index = s.index := rfl
@[simp] theorem respond_responses (r : Response) (s : State) : (respond r s).responses = s.responses := rfl
@[simp] theorem respond_entropy (r : Response) (s : State) : (respond r s).entropy = s.entropy := rfl
@[simp] theorem respond_drawn (r : Response) (s : State) : (respond r s).drawn = s.drawn := rfl

/-! ## `refuse` -/

@[simp] theorem refuse_valid (c : Status) (s : State) : (refuse c s).valid = s.valid := rfl
@[simp] theorem refuse_seq (c : Status) (s : State) : (refuse c s).seq = s.seq := rfl
@[simp] theorem refuse_ts (c : Status) (s : State) : (refuse c s).ts = s.ts := rfl
@[simp] theorem refuse_ssrc (c : Status) (s : State) : (refuse c s).ssrc = s.ssrc := rfl
@[simp] theorem refuse_din (c : Status) (s : State) : (refuse c s).din = s.din := rfl
@[simp] theorem refuse_response (c : Status) (s : State) : (refuse c s).response = Response.refusal c := rfl
@[simp] theorem refuse_config (c : Status) (s : State) : (refuse c s).config = s.config := rfl
@[simp] theorem refuse_program (c : Status) (s : State) : (refuse c s).program = s.program := rfl
@[simp] theorem refuse_index (c : Status) (s : State) : (refuse c s).index = s.index := rfl
@[simp] theorem refuse_responses (c : Status) (s : State) : (refuse c s).responses = s.responses := rfl
@[simp] theorem refuse_entropy (c : Status) (s : State) : (refuse c s).entropy = s.entropy := rfl
@[simp] theorem refuse_drawn (c : Status) (s : State) : (refuse c s).drawn = s.drawn := rfl

/-! ## `advanceStream` -/

@[simp] theorem advanceStream_valid (n : BitVec 32) (s : State) : (advanceStream n s).valid = s.valid := rfl
@[simp] theorem advanceStream_seq (n : BitVec 32) (s : State) : (advanceStream n s).seq = s.seq + 1 := rfl
@[simp] theorem advanceStream_ts (n : BitVec 32) (s : State) : (advanceStream n s).ts = s.ts + n := rfl
@[simp] theorem advanceStream_ssrc (n : BitVec 32) (s : State) : (advanceStream n s).ssrc = s.ssrc := rfl
@[simp] theorem advanceStream_din (n : BitVec 32) (s : State) : (advanceStream n s).din = s.din := rfl
@[simp] theorem advanceStream_response (n : BitVec 32) (s : State) : (advanceStream n s).response = s.response := rfl
@[simp] theorem advanceStream_config (n : BitVec 32) (s : State) : (advanceStream n s).config = s.config := rfl
@[simp] theorem advanceStream_program (n : BitVec 32) (s : State) : (advanceStream n s).program = s.program := rfl
@[simp] theorem advanceStream_index (n : BitVec 32) (s : State) : (advanceStream n s).index = s.index := rfl
@[simp] theorem advanceStream_responses (n : BitVec 32) (s : State) : (advanceStream n s).responses = s.responses := rfl
@[simp] theorem advanceStream_entropy (n : BitVec 32) (s : State) : (advanceStream n s).entropy = s.entropy := rfl
@[simp] theorem advanceStream_drawn (n : BitVec 32) (s : State) : (advanceStream n s).drawn = s.drawn := rfl

/-! ## `consumeDraw` -/

@[simp] theorem consumeDraw_valid (s : State) : (consumeDraw s).valid = s.valid := rfl
@[simp] theorem consumeDraw_seq (s : State) : (consumeDraw s).seq = s.seq := rfl
@[simp] theorem consumeDraw_ts (s : State) : (consumeDraw s).ts = s.ts := rfl
@[simp] theorem consumeDraw_ssrc (s : State) : (consumeDraw s).ssrc = s.ssrc := rfl
@[simp] theorem consumeDraw_din (s : State) : (consumeDraw s).din = s.din := rfl
@[simp] theorem consumeDraw_response (s : State) : (consumeDraw s).response = s.response := rfl
@[simp] theorem consumeDraw_config (s : State) : (consumeDraw s).config = s.config := rfl
@[simp] theorem consumeDraw_program (s : State) : (consumeDraw s).program = s.program := rfl
@[simp] theorem consumeDraw_index (s : State) : (consumeDraw s).index = s.index := rfl
@[simp] theorem consumeDraw_responses (s : State) : (consumeDraw s).responses = s.responses := rfl
@[simp] theorem consumeDraw_entropy (s : State) : (consumeDraw s).entropy = s.entropy.tail := rfl
@[simp] theorem consumeDraw_drawn (s : State) : (consumeDraw s).drawn = s.drawn + 1 := rfl

/-! ## `openStream` -/

@[simp] theorem openStream_valid (d : Draw) (s : State) : (openStream d s).valid = s.valid := rfl
@[simp] theorem openStream_seq (d : Draw) (s : State) : (openStream d s).seq = d.extractLsb' 32 16 := rfl
@[simp] theorem openStream_ts (d : Draw) (s : State) : (openStream d s).ts = 0 := rfl
@[simp] theorem openStream_ssrc (d : Draw) (s : State) : (openStream d s).ssrc = d.extractLsb' 0 32 := rfl
@[simp] theorem openStream_din (d : Draw) (s : State) : (openStream d s).din = s.din := rfl
@[simp] theorem openStream_response (d : Draw) (s : State) : (openStream d s).response = s.response := rfl
@[simp] theorem openStream_config (d : Draw) (s : State) : (openStream d s).config = s.config := rfl
@[simp] theorem openStream_program (d : Draw) (s : State) : (openStream d s).program = s.program := rfl
@[simp] theorem openStream_index (d : Draw) (s : State) : (openStream d s).index = s.index := rfl
@[simp] theorem openStream_responses (d : Draw) (s : State) : (openStream d s).responses = s.responses := rfl
@[simp] theorem openStream_entropy (d : Draw) (s : State) : (openStream d s).entropy = s.entropy := rfl
@[simp] theorem openStream_drawn (d : Draw) (s : State) : (openStream d s).drawn = s.drawn := rfl

/-! ## `setValid` -/

@[simp] theorem setValid_valid (s : State) : (setValid s).valid = true := rfl
@[simp] theorem setValid_seq (s : State) : (setValid s).seq = s.seq := rfl
@[simp] theorem setValid_ts (s : State) : (setValid s).ts = s.ts := rfl
@[simp] theorem setValid_ssrc (s : State) : (setValid s).ssrc = s.ssrc := rfl
@[simp] theorem setValid_din (s : State) : (setValid s).din = s.din := rfl
@[simp] theorem setValid_response (s : State) : (setValid s).response = s.response := rfl
@[simp] theorem setValid_config (s : State) : (setValid s).config = s.config := rfl
@[simp] theorem setValid_program (s : State) : (setValid s).program = s.program := rfl
@[simp] theorem setValid_index (s : State) : (setValid s).index = s.index := rfl
@[simp] theorem setValid_responses (s : State) : (setValid s).responses = s.responses := rfl
@[simp] theorem setValid_entropy (s : State) : (setValid s).entropy = s.entropy := rfl
@[simp] theorem setValid_drawn (s : State) : (setValid s).drawn = s.drawn := rfl

/-! ## `hardwareReset` -/

@[simp] theorem hardwareReset_valid (s : State) : (hardwareReset s).valid = false := rfl
@[simp] theorem hardwareReset_seq (s : State) : (hardwareReset s).seq = State.reset.seq := rfl
@[simp] theorem hardwareReset_ts (s : State) : (hardwareReset s).ts = State.reset.ts := rfl
@[simp] theorem hardwareReset_ssrc (s : State) : (hardwareReset s).ssrc = State.reset.ssrc := rfl
@[simp] theorem hardwareReset_din (s : State) : (hardwareReset s).din = [] := rfl
@[simp] theorem hardwareReset_response (s : State) : (hardwareReset s).response = Response.none := rfl
@[simp] theorem hardwareReset_config (s : State) : (hardwareReset s).config = s.config := rfl
@[simp] theorem hardwareReset_program (s : State) : (hardwareReset s).program = s.program := rfl
@[simp] theorem hardwareReset_index (s : State) : (hardwareReset s).index = s.index := rfl
@[simp] theorem hardwareReset_responses (s : State) : (hardwareReset s).responses = s.responses := rfl
@[simp] theorem hardwareReset_entropy (s : State) : (hardwareReset s).entropy = s.entropy := rfl
@[simp] theorem hardwareReset_drawn (s : State) : (hardwareReset s).drawn = s.drawn := rfl

/-! ## `accept` -/

@[simp] theorem accept_valid (b : Buffer) (s : State) : (accept b s).valid = s.valid := rfl
@[simp] theorem accept_seq (b : Buffer) (s : State) : (accept b s).seq = s.seq := rfl
@[simp] theorem accept_ts (b : Buffer) (s : State) : (accept b s).ts = s.ts := rfl
@[simp] theorem accept_ssrc (b : Buffer) (s : State) : (accept b s).ssrc = s.ssrc := rfl
@[simp] theorem accept_din (b : Buffer) (s : State) : (accept b s).din = b := rfl
@[simp] theorem accept_response (b : Buffer) (s : State) : (accept b s).response = Response.none := rfl
@[simp] theorem accept_config (b : Buffer) (s : State) : (accept b s).config = s.config := rfl
@[simp] theorem accept_program (b : Buffer) (s : State) : (accept b s).program = s.program := rfl
@[simp] theorem accept_index (b : Buffer) (s : State) : (accept b s).index = s.index := rfl
@[simp] theorem accept_responses (b : Buffer) (s : State) : (accept b s).responses = s.responses := rfl
@[simp] theorem accept_entropy (b : Buffer) (s : State) : (accept b s).entropy = s.entropy := rfl
@[simp] theorem accept_drawn (b : Buffer) (s : State) : (accept b s).drawn = s.drawn := rfl

/-! ## `retire` -/

@[simp] theorem retire_valid (s : State) : (retire s).valid = s.valid := rfl
@[simp] theorem retire_seq (s : State) : (retire s).seq = s.seq := rfl
@[simp] theorem retire_ts (s : State) : (retire s).ts = s.ts := rfl
@[simp] theorem retire_ssrc (s : State) : (retire s).ssrc = s.ssrc := rfl
@[simp] theorem retire_din (s : State) : (retire s).din = [] := rfl
@[simp] theorem retire_response (s : State) : (retire s).response = Response.none := rfl
@[simp] theorem retire_config (s : State) : (retire s).config = s.config := rfl
@[simp] theorem retire_program (s : State) : (retire s).program = s.program := rfl
@[simp] theorem retire_index (s : State) : (retire s).index = s.index + 1 := rfl
@[simp] theorem retire_responses (s : State) : (retire s).responses = s.responses ++ [s.response] := rfl
@[simp] theorem retire_entropy (s : State) : (retire s).entropy = s.entropy := rfl
@[simp] theorem retire_drawn (s : State) : (retire s).drawn = s.drawn := rfl

/-! ## `takeReset` -/

@[simp] theorem takeReset_valid (s : State) : (takeReset s).valid = false := rfl
@[simp] theorem takeReset_seq (s : State) : (takeReset s).seq = State.reset.seq := rfl
@[simp] theorem takeReset_ts (s : State) : (takeReset s).ts = State.reset.ts := rfl
@[simp] theorem takeReset_ssrc (s : State) : (takeReset s).ssrc = State.reset.ssrc := rfl
@[simp] theorem takeReset_din (s : State) : (takeReset s).din = [] := rfl
@[simp] theorem takeReset_response (s : State) : (takeReset s).response = Response.none := rfl
@[simp] theorem takeReset_config (s : State) : (takeReset s).config = s.config := rfl
@[simp] theorem takeReset_program (s : State) : (takeReset s).program = s.program := rfl
@[simp] theorem takeReset_index (s : State) : (takeReset s).index = s.index + 1 := rfl
@[simp] theorem takeReset_responses (s : State) : (takeReset s).responses = s.responses := rfl
@[simp] theorem takeReset_entropy (s : State) : (takeReset s).entropy = s.entropy := rfl
@[simp] theorem takeReset_drawn (s : State) : (takeReset s).drawn = s.drawn := rfl

end Sys2Proof.Machine
end

