-- ==== Sys2Proof/Laws/Ops.lean ====
section
/-! SUPPORT. What each shared operation can do, said once: buffer accesses, the capacity and stream checks, the end of a
command, the run bookkeeping. -/

namespace Sys2Proof.Machine

/-! ## Buffers -/

theorem readByte_eq_getD {din : Buffer} {a : Nat} (h : a < din.length) : readByte din a = .ok (din.getD a 0) := by
  simp [readByte, List.getElem?_eq_getElem h, List.getD]

theorem readByte_out_of_range {din : Buffer} {a : Nat} (h : din.length ≤ a) :
    readByte din a = .error .dinOutOfRange := by
  simp [readByte, List.getElem?_eq_none h]

theorem memRead_of_le {din : Buffer} {a n : Nat} (h : a + n ≤ din.length) :
    memRead din a n = .ok ((din.drop a).take n) := by
  simp [memRead, h]

theorem memRead_all (din : Buffer) : memRead din 0 din.length = .ok din := by
  simp [memRead]

theorem memRead_to_end {din : Buffer} {a : Nat} (h : a ≤ din.length) :
    memRead din a (din.length - a) = .ok (din.drop a) := by
  rw [memRead_of_le (by omega), List.take_of_length_le (by simp)]

/-- Writing at the end of `DOUT` appends. -/
theorem memWrite_at_end {dout v : Buffer} {a : Nat} (h : dout.length = a) : memWrite dout a v = .ok (dout ++ v) := by
  subst h; simp [memWrite]

theorem memWrite_nil (v : Buffer) : memWrite [] 0 v = .ok v := by
  simp [memWrite]

theorem memWrite_gap {dout v : Buffer} {a : Nat} (h : dout.length < a) : memWrite dout a v = .error .doutGap := by
  simp [memWrite, h]

/-- A written range reads back as what was written. -/
theorem memWrite_written {dout v d : Buffer} {a : Nat} (h : memWrite dout a v = .ok d) :
    (d.drop a).take v.length = v := by
  simp only [memWrite] at h
  split at h
  · cases h
    rw [List.append_assoc, List.drop_append_of_le_length (by simp; omega)]
    simp
  · cases h

/-- Bytes before a written range stay. -/
theorem memWrite_before {dout v d : Buffer} {a i : Nat} (h : memWrite dout a v = .ok d) (hi : i < a) :
    d[i]? = dout[i]? := by
  simp only [memWrite] at h
  split at h
  · cases h
    rw [List.append_assoc, List.getElem?_append_left (by simp; omega), List.getElem?_take_of_lt hi]
  · cases h

theorem readSample_of_lt {din : Buffer} {i : Nat} (h : 2 * i + 1 < din.length) :
    readSample din i = .ok (le16 (din.getD (2 * i) 0) (din.getD (2 * i + 1) 0)) := by
  simp only [readSample, readByte_eq_getD (show 2 * i < din.length by omega), readByte_eq_getD h]
  rfl

/-! ## Ends of a command -/

theorem withCapacity_of_le {s : State} (h : WithinCapacity s) (k : Host.Outcome State Fault Refusal) :
    withCapacity s k = k := by
  simp only [withCapacity]; rw [if_neg (by omega)]

theorem withCapacity_of_lt {s : State} (h : s.config.dinMax < s.din.length) (k : Host.Outcome State Fault Refusal) :
    withCapacity s k = .next (refuse .badlen s) := by
  simp [withCapacity, h]

theorem withStream_of_valid {s : State} (h : s.valid = true) (k : Stream → Host.Outcome State Fault Refusal) :
    withStream s k = k ⟨s.seq, s.ts, s.ssrc⟩ := by
  simp [withStream, State.stream, h]

theorem withStream_of_invalid {s : State} (h : s.valid = false) (k : Stream → Host.Outcome State Fault Refusal) :
    withStream s k = .next (refuse .nostream s) := by
  simp [withStream, State.stream, h]

@[simp] theorem finish_ok (b : Buffer) (k : Buffer → State) : finish (.ok b) k = .next (k b) := rfl

@[simp] theorem finish_error (f : Fault) (k : Buffer → State) : finish (.error f) k = .fault f := rfl

@[simp] theorem onNext_next (f : State → State) (s : State) : onNext f (.next s) = .next (f s) := rfl

@[simp] theorem onNext_fault (f : State → State) (r : Fault) : onNext f (.fault r) = .fault r := rfl

@[simp] theorem onNext_refused (f : State → State) (r : Refusal) : onNext f (.refused r) = .refused r := rfl

/-- `onNext` answers a next state only by way of one. -/
theorem onNext_eq_next {f : State → State} {o : Host.Outcome State Fault Refusal} {t : State}
    (h : onNext f o = .next t) : ∃ s, o = .next s ∧ t = f s := by
  cases o with
  | next s => exact ⟨s, rfl, by simpa using h.symm⟩
  | fault r => cases h
  | refused r => cases h

/-! ## The stream registers -/

theorem stream_of_valid {s : State} (h : s.valid = true) : s.stream = some ⟨s.seq, s.ts, s.ssrc⟩ := by
  simp [State.stream, h]

theorem stream_of_invalid {s : State} (h : s.valid = false) : s.stream = none := by
  simp [State.stream, h]

/-- A stated draw is the one taken. -/
theorem rnd_of_cons {s : State} {d : Draw} {ds : List Draw} (h : s.entropy = d :: ds) : s.rnd = d := by
  simp [State.rnd, h]

/-- With no stated draw left the draw is the free value. -/
theorem rnd_of_nil {s : State} (h : s.entropy = []) : s.rnd = Config.freeDraw s.drawn := by
  simp [State.rnd, h]

/-! ## The run -/

/-- A presented word is the next action. -/
theorem currentAction_presentWord (cw : CommandWord) (s : State) :
    currentAction (presentWord cw s) = some (.issue cw s.din) := by
  simp only [currentAction, presentWord, List.append_assoc]
  rw [List.getElem?_append_right (by simp)]
  simp

end Sys2Proof.Machine
end

