-- ==== Sys2Proof/Laws/Codec.lean ====
section
/-! SUPPORT. The codec's quantities stay in the ranges the rules give (R101, R102, R107), and each batch loop appends one
piece per item (R111, R112). -/

namespace Sys2Proof.Machine

theorem clampedMagnitude_le (x : Int) : clampedMagnitude x ≤ 32635 := by
  simp [clampedMagnitude]

theorem biasedMagnitude_range (x : Int) : 132 ≤ biasedMagnitude x ∧ biasedMagnitude x ≤ 32767 := by
  have := clampedMagnitude_le x
  simp only [biasedMagnitude, bias]
  omega

/-- The leading bit of the biased magnitude stands at an index between 7 and 14 (R102). -/
theorem msb_biased_range (x : Int) : 7 ≤ msb (biasedMagnitude x) ∧ msb (biasedMagnitude x) ≤ 14 := by
  obtain ⟨lo, hi⟩ := biasedMagnitude_range x
  refine ⟨(Nat.le_log2 (by omega)).2 (by omega), ?_⟩
  exact Nat.lt_succ_iff.1 ((Nat.log2_lt (by omega)).2 (by omega))

theorem exponent_le (x : Int) : exponent x ≤ 7 := by
  have := msb_biased_range x
  simp only [exponent]
  omega

theorem mantissa_le (x : Int) : mantissa x ≤ 15 := Nat.and_le_right

theorem signBit_le (x : Int) : signBit x ≤ 1 := by
  simp only [signBit]; split <;> omega

/-- The codes of samples `i`, ..., `i + k - 1` of a PCM buffer. -/
def codesFrom (din : Buffer) (i k : Nat) : Buffer :=
  (List.range' i k).map fun j => ulawEnc (sampleAt din j)

/-- The PCM bytes of codes `base + i`, ..., `base + i + k - 1` of a buffer. -/
def pcmFrom (din : Buffer) (base i k : Nat) : Buffer :=
  (List.range' i k).flatMap fun j => bytesLe16 (twos16 (ulawDec (din.getD (base + j) 0)))

@[simp] theorem codesFrom_length (din : Buffer) (i k : Nat) : (codesFrom din i k).length = k := by
  simp [codesFrom]

@[simp] theorem pcmFrom_length (din : Buffer) (base i k : Nat) : (pcmFrom din base i k).length = 2 * k := by
  simp [pcmFrom, bytesLe16, Nat.mul_comm]

/-- The encode loop appends the codes of its samples. -/
theorem encodeLoop_eq (din : Buffer) (base : Nat) : ∀ (k i : Nat) (dout : Buffer),
    dout.length = base + i → 2 * (i + k) ≤ din.length →
    encodeLoop din base i k dout = .ok (dout ++ codesFrom din i k)
  | 0, _, dout, _, _ => by simp [encodeLoop, codesFrom]
  | k + 1, i, dout, hd, hl => by
    have ih := encodeLoop_eq din base k (i + 1) (dout ++ [ulawEnc (sampleAt din i)])
      (by simp [hd]; omega) (by omega)
    simp only [encodeLoop, readSample_of_lt (show 2 * i + 1 < din.length by omega), memWrite_at_end hd]
    refine Eq.trans ih ?_
    simp [codesFrom, List.range'_succ]

/-- The decode loop appends two bytes per code. -/
theorem decodeLoop_eq (din : Buffer) (base : Nat) : ∀ (k i : Nat) (dout : Buffer),
    dout.length = 2 * i → base + i + k ≤ din.length →
    decodeLoop din base i k dout = .ok (dout ++ pcmFrom din base i k)
  | 0, _, dout, _, _ => by simp [decodeLoop, pcmFrom]
  | k + 1, i, dout, hd, hl => by
    have ih := decodeLoop_eq din base k (i + 1)
      (dout ++ bytesLe16 (twos16 (ulawDec (din.getD (base + i) 0))))
      (by simp [bytesLe16, hd]; omega) (by omega)
    simp only [decodeLoop, readByte_eq_getD (show base + i < din.length by omega), memWrite_at_end hd]
    refine Eq.trans ih ?_
    simp [pcmFrom, List.range'_succ]

end Sys2Proof.Machine
end

