-- ==== Sys2Proof/Laws/Decode.lean ====
section
/-! SUPPORT. What a row of the opcode map selects: the words whose opcode field is its own (R63), and the fields of a
word put together by format C (R61). -/

namespace Sys2Proof

/-- A match that is an opcode above forty zero bits selects a word exactly by that word's opcode. -/
theorem selects_iff_op (op : Byte) (w : CommandWord) :
    w &&& opcodeMask = op.zeroExtend 48 <<< 40 ↔ opField w = op := by
  have bit (i : Nat) (hi : i < 48) :
      (w &&& opcodeMask).getLsbD i = (decide (40 ≤ i) && w.getLsbD i) := by
    interval_cases i <;> simp [opcodeMask]
  constructor
  · intro h
    apply BitVec.eq_of_getLsbD_eq
    intro i hi
    have := congrArg (fun v : CommandWord => v.getLsbD (40 + i)) h
    have e := bit (40 + i) (by omega)
    simp only [this] at e
    simpa [opField, hi, show 40 + i < 48 by omega] using e.symm
  · rintro rfl
    apply BitVec.eq_of_getLsbD_eq
    intro i hi
    rw [bit i hi]
    by_cases h : 40 ≤ i
    · simp [opField, h, hi, show ¬ i < 40 by omega, show i - 40 < 8 by omega, show 40 + (i - 40) = i by omega]
    · simp [h, show i < 40 by omega]

/-- `OpcodeRow.selects` in terms of the opcode field. -/
theorem selects_eq_true_iff {r : OpcodeRow} {op : Byte} (h : r.pattern = op.zeroExtend 48 <<< 40) (w : CommandWord) :
    r.selects w = true ↔ opField w = op := by
  simp only [OpcodeRow.selects, beq_iff_eq, h, selects_iff_op]

/-- Decoding, opcode by opcode (R63, R64). -/
theorem decode_by_opcode (w : CommandWord) : decode w =
    if opField w = 0x01 then .ok (.ulawEnc ((immField w).extractLsb' 0 16)) else
    if opField w = 0x02 then .ok (.ulawDec ((immField w).extractLsb' 0 8)) else
    if opField w = 0x03 then .ok .ulawEncb else if opField w = 0x04 then .ok .ulawDecb else
    if opField w = 0x10 then .ok .rtpReset else if opField w = 0x11 then .ok (.rtpBuild (ptField w) (immField w)) else
    if opField w = 0x12 then .ok .rtpParse else if opField w = 0x13 then .ok .rtpHdr else
    if opField w = 0x20 then .ok .txFrame else if opField w = 0x21 then .ok .rxPkt else
    .error (.reservedOpcode (opField w)) := by
  have h (m : String) (p : CommandWord) (f) (op : Byte) (hp : p = op.zeroExtend 48 <<< 40) :
      (OpcodeRow.selects ⟨m, p, f⟩ w) = decide (opField w = op) := by
    rw [Bool.eq_iff_iff, selects_eq_true_iff hp]; simp
  simp only [decode, opcodeMap, List.find?, h _ 0x010000000000 _ 0x01 (by decide), h _ 0x020000000000 _ 0x02 (by decide),
   h _ 0x030000000000 _ 0x03 (by decide), h _ 0x040000000000 _ 0x04 (by decide), h _ 0x100000000000 _ 0x10 (by decide),
   h _ 0x110000000000 _ 0x11 (by decide), h _ 0x120000000000 _ 0x12 (by decide), h _ 0x130000000000 _ 0x13 (by decide),
   h _ 0x200000000000 _ 0x20 (by decide), h _ 0x210000000000 _ 0x21 (by decide)]
  by_cases h1 : opField w = 0x01
  · simp [h1]
  by_cases h2 : opField w = 0x02
  · simp [h2]
  by_cases h3 : opField w = 0x03
  · simp [h3]
  by_cases h4 : opField w = 0x04
  · simp [h4]
  by_cases h5 : opField w = 0x10
  · simp [h5]
  by_cases h6 : opField w = 0x11
  · simp [h6]
  by_cases h7 : opField w = 0x12
  · simp [h7]
  by_cases h8 : opField w = 0x13
  · simp [h8]
  by_cases h9 : opField w = 0x20
  · simp [h9]
  by_cases h10 : opField w = 0x21
  · simp [h10]
  simp only [h1, h2, h3, h4, h5, h6, h7, h8, h9, h10, decide_false, if_false]

@[simp] theorem opField_formatC (op pt : Byte) (imm : BitVec 32) : opField (formatC op pt imm) = op := by
  apply BitVec.eq_of_getLsbD_eq
  intro i hi
  simp [opField, formatC, hi, show 40 + i < 48 by omega, show ¬ 40 + i < 32 by omega,
    pt.getLsbD_of_ge (40 + i - 32) (by omega), imm.getLsbD_of_ge (40 + i) (by omega)]

@[simp] theorem ptField_formatC (op pt : Byte) (imm : BitVec 32) : ptField (formatC op pt imm) = pt := by
  apply BitVec.eq_of_getLsbD_eq
  intro i hi
  simp [ptField, formatC, hi, show 32 + i < 40 by omega, show 32 + i < 48 by omega]

@[simp] theorem immField_formatC (op pt : Byte) (imm : BitVec 32) : immField (formatC op pt imm) = imm := by
  apply BitVec.eq_of_getLsbD_eq
  intro i hi
  simp [immField, formatC, hi, show i < 40 by omega, show i < 48 by omega]

end Sys2Proof
end

