-- ==== Sys2Proof/Laws/Header.lean ====
section
/-! SUPPORT. The bits of the 96-bit header value, byte by byte (R68, R76), and the length of a serialized header (R70). -/

namespace Sys2Proof.Machine

/-- One byte shifted in: the low eight bits are the byte, the others the value before. -/
theorem appendByte_getLsbD (acc : HeaderValue) (b : Byte) {i : Nat} (hi : i < 96) :
    (appendByte acc b).getLsbD i = if i < 8 then b.getLsbD i else acc.getLsbD (i - 8) := by
  by_cases h : i < 8
  · simp [appendByte, h, hi]
  · simp [appendByte, h, hi, b.getLsbD_of_ge i (by omega), -BitVec.getLsbD_eq_getElem]

/-- Bit `j` of bytes shifted in one after another: the last byte lowest. -/
theorem foldl_appendByte_getLsbD : ∀ (bs : Buffer) (acc : HeaderValue) {j : Nat}, j < 96 →
    (bs.foldl appendByte acc).getLsbD j =
      if j < 8 * bs.length then (bs.getD (bs.length - 1 - j / 8) 0).getLsbD (j % 8)
      else acc.getLsbD (j - 8 * bs.length)
  | [], acc, j, _ => by simp
  | b :: bs, acc, j, hj => by
    rw [List.foldl_cons, foldl_appendByte_getLsbD bs _ hj, List.length_cons]
    by_cases h : j < 8 * bs.length
    · rw [if_pos h, if_pos (by omega), show bs.length + 1 - 1 - j / 8 = bs.length - 1 - j / 8 + 1 by omega]
      rfl
    · rw [if_neg h, appendByte_getLsbD _ _ (by omega)]
      by_cases h8 : j - 8 * bs.length < 8
      · rw [if_pos h8, if_pos (by omega), show bs.length + 1 - 1 - j / 8 = 0 by omega,
          show j - 8 * bs.length = j % 8 by omega]
        rfl
      · rw [if_neg h8, if_neg (by omega), show j - 8 * bs.length - 8 = j - 8 * (bs.length + 1) by omega]

/-- Byte `k` of a 12-byte header stands in bits `8 * (11 - k)` and up of `HDR`. -/
theorem headerValue_getLsbD {bs : Buffer} (h : bs.length = 12) {k i : Nat} (hk : k < 12) (hi : i < 8) :
    (headerValue bs).getLsbD (8 * (11 - k) + i) = (bs.getD k 0).getLsbD i := by
  rw [headerValue, foldl_appendByte_getLsbD bs 0 (by omega), h, if_pos (by omega),
    show 12 - 1 - (8 * (11 - k) + i) / 8 = k by omega, show (8 * (11 - k) + i) % 8 = i by omega]

@[simp] theorem rtpHeader_length (pt : Byte) (seq : BitVec 16) (ts ssrc : BitVec 32) :
    (rtpHeader pt seq ts ssrc).length = 12 := rfl

end Sys2Proof.Machine
end

