-- ==== Sys2Proof/Laws/PerInstr.lean ====
section
/-! SUPPORT. One lemma per constructor: the word the assembler writes for a command selects the row of the opcode map
that carries the command's mnemonic (R63). -/

namespace Sys2Proof.Laws.Encoding

/-- The command's word selects the row of its mnemonic. -/
def Statement (i : Instr) : Prop := ∃ r ∈ opcodeMap, r.mnemonic = i.mnemonic ∧ r.selects (encode i) = true

/-- A row of the map that carries the mnemonic and whose match is the opcode of the word is enough. -/
theorem of_row {i : Instr} (r : OpcodeRow) (op : Byte) (hr : r ∈ opcodeMap) (hm : r.mnemonic = i.mnemonic)
    (hp : r.pattern = op.zeroExtend 48 <<< 40) (ho : opField (encode i) = op) : Statement i :=
  ⟨r, hr, hm, (selects_eq_true_iff hp _).2 ho⟩

theorem ulawEnc (sample : Sample) : Statement (.ulawEnc sample) :=
  of_row _ 0x01 (.head _) rfl (by decide) (opField_formatC _ _ _)

theorem ulawDec (code : Byte) : Statement (.ulawDec code) :=
  of_row _ 0x02 (.tail _ (.head _)) rfl (by decide) (opField_formatC _ _ _)

theorem ulawEncb : Statement .ulawEncb :=
  of_row _ 0x03 (.tail _ (.tail _ (.head _))) rfl (by decide) (opField_formatC _ _ _)

theorem ulawDecb : Statement .ulawDecb :=
  of_row _ 0x04 (.tail _ (.tail _ (.tail _ (.head _)))) rfl (by decide) (opField_formatC _ _ _)

theorem rtpReset : Statement .rtpReset :=
  of_row _ 0x10 (.tail _ (.tail _ (.tail _ (.tail _ (.head _))))) rfl (by decide) (opField_formatC _ _ _)

theorem rtpBuild (pt : Byte) (sc : BitVec 32) : Statement (.rtpBuild pt sc) :=
  of_row _ 0x11 (.tail _ (.tail _ (.tail _ (.tail _ (.tail _ (.head _)))))) rfl (by decide) (opField_formatC _ _ _)

theorem rtpParse : Statement .rtpParse :=
  of_row _ 0x12 (.tail _ (.tail _ (.tail _ (.tail _ (.tail _ (.tail _ (.head _))))))) rfl (by decide)
    (opField_formatC _ _ _)

theorem rtpHdr : Statement .rtpHdr :=
  of_row _ 0x13 (.tail _ (.tail _ (.tail _ (.tail _ (.tail _ (.tail _ (.tail _ (.head _)))))))) rfl (by decide)
    (opField_formatC _ _ _)

theorem txFrame : Statement .txFrame :=
  of_row _ 0x20 (.tail _ (.tail _ (.tail _ (.tail _ (.tail _ (.tail _ (.tail _ (.tail _ (.head _))))))))) rfl
    (by decide) (opField_formatC _ _ _)

theorem rxPkt : Statement .rxPkt :=
  of_row _ 0x21 (.tail _ (.tail _ (.tail _ (.tail _ (.tail _ (.tail _ (.tail _ (.tail _ (.tail _ (.head _))))))))))
    rfl (by decide) (opField_formatC _ _ _)

end Sys2Proof.Laws.Encoding
end

