-- ==== Sys2Proof/Tests/Slice0.lean ====
section
/-! SUPPORT. Small tests of one step each, with expected results from spec/95_test_vectors.md and the worked examples of
the rules, the refusals of the well-formedness checks, and a witness for the hypotheses of every statement. -/

namespace Sys2Proof.Tests

open Sys2Proof.Machine

/-! ## Helpers -/

/-- A machine whose stream registers hold these values. -/
def streaming (seq : BitVec 16) (ts ssrc : BitVec 32) : State :=
  { State.reset with valid := true, seq := seq, ts := ts, ssrc := ssrc }

/-- The state about to take these host actions. -/
def facing (s : State) (actions : List HostAction) : State := { s with program := actions, index := 0 }

/-- The state in which a command meets this `DIN`. -/
def meeting (s : State) (din : Buffer) : State := { s with din := din }

/-- What a step answers: the last response and the four state elements. -/
def outcome (o : Host.Outcome State Fault Refusal) : Option (Option Response × Option Stream) :=
  match o with
  | .next t => some (t.responses.getLast?, t.stream)
  | .fault _ => none
  | .refused _ => none

/-- One command issued. -/
def issued (s : State) (cw : CommandWord) (din : Buffer) : Option (Option Response × Option Stream) :=
  outcome (step (facing s [.issue cw din]))

/-- Whether an outcome is a next state. -/
def isNext (o : Host.Outcome State Fault Refusal) : Bool :=
  match o with
  | .next _ => true
  | .fault _ => false
  | .refused _ => false

/-- Whether an outcome is a next state with this property. -/
def after (o : Host.Outcome State Fault Refusal) (p : State → Bool) : Bool :=
  match o with
  | .next t => p t
  | .fault _ => false
  | .refused _ => false

/-- The worked packet of R140: payload type 96, sequence 1, timestamp 0x9F, SSRC 1, payload 01 02 03. -/
def packet96 : Buffer := [0x80, 0x60, 0, 0x01, 0, 0, 0, 0x9F, 0, 0, 0, 0x01, 0x01, 0x02, 0x03]

/-! ## Ill-formed terms, one per check (R6, R66) -/

theorem test_sample_above_range_is_refused : (Written.ulawEnc 32768).toInstr = none := by decide

theorem test_sample_below_range_is_refused : (Written.ulawEnc (-32769)).toInstr = none := by decide

theorem test_code_above_range_is_refused : (Written.ulawDec 256).toInstr = none := by decide

theorem test_payload_type_above_range_is_refused : (Written.rtpBuild 256 0).toInstr = none := by decide

theorem test_sample_count_above_range_is_refused : (Written.rtpBuild 0 (2 ^ 32)).toInstr = none := by decide

theorem test_config_below_2060_is_not_conformant : ¬ Config.Conformant ⟨2059⟩ := by decide

theorem test_assemble_extremes :
    assemble (.ulawEnc (-32768)) = some 0x010000008000 ∧ assemble (.rtpBuild 255 (2 ^ 32 - 1)) = some 0x11FFFFFFFFFF := by
  decide

/-! ## Decoding: words written out bit by bit from R61 and R63 -/

/-- R65: `ULAW.ENC 1000` with nonzero ignored fields (95_test_vectors.md 3.1). -/
theorem test_decode_ignores_unused_fields : (decode 0x01FF123403E8).toOption = some (.ulawEnc 0x03E8) := by decide

/-- Framer family: op 00010001, pt 11100000, imm 0...0 (P2 step 6). -/
theorem test_decode_build_bits :
    (decode 0b000100011110000000000000000000000000000000000000).toOption = some (.rtpBuild 0xE0 0) := by decide

/-- Codec family: op 00000010, imm[7:0] 01111111 (95_test_vectors.md 3.2). -/
theorem test_decode_dec_bits :
    (decode 0b000000100000000000000000000000000000000001111111).toOption = some (.ulawDec 0x7F) := by decide

/-- Frame-path family: op 00100001. -/
theorem test_decode_rx_bits :
    (decode 0b001000010000000000000000000000000000000000000000).toOption = some .rxPkt := by decide

/-- X1 to X5: reserved opcodes next to listed ones. -/
theorem test_decode_reserved :
    [0x000000000000, 0x050000000000, 0x140000000000, 0x220000000000, 0xFF0000000000].all
      (fun w => (decodeTableWord 48 w).isNone) = true := by decide

/-- Every row of spec/opcode_table.json decodes and runs as the first command after reset. -/
theorem test_every_row_runs_first :
    [0x010000000000, 0x020000000000, 0x030000000000, 0x040000000000, 0x100000000000, 0x110000000000, 0x120000000000,
      0x130000000000, 0x200000000000, 0x210000000000].all
      (fun w => (decodeTableWord 48 w).isSome && isNext (step (State.reset.withFetchWord 48 w))) = true := by decide

/-! ## `ULAW.ENC`, `ULAW.DEC` (95_test_vectors.md 3.1, 3.2) -/

/-- Sample -32768: magnitude 32768 before the clamp (R103). -/
theorem test_enc_most_negative : issued State.reset 0x010000008000 [] = some (some ⟨.ok, 0x0000, 0, []⟩, none) := by
  decide

/-- The segment boundary 123 / 124 and -4660, as the table of 3.1 has them. -/
theorem test_enc_boundary : [ulawEnc 123, ulawEnc 124, ulawEnc (-4660), ulawEnc 8060] = [0xF0, 0xEF, 0x2D, 0x9F] := by
  decide

theorem test_dec_most_negative : issued State.reset 0x020000000000 [] = some (some ⟨.ok, 0x8284, 0, []⟩, none) := by
  decide

theorem test_dec_selected : [ulawDec 0xEF, ulawDec 0x4E, ulawDec 0x8F, ulawDec 0x7F] = [132, -988, 16764, 0] := by decide

/-! ## `ULAW.ENCB`, `ULAW.DECB` (3.3, P3) -/

/-- F4: the bytes of 1000 swapped are another sample. -/
theorem test_encb_byte_order : issued State.reset 0x030000000000 [0x03, 0xE8] = some (some ⟨.ok, 0, 0, [0x27]⟩, none) := by
  decide

/-- P3 step 1: seven samples and an odd byte. -/
theorem test_encb_odd_byte :
    issued State.reset 0x030000000000
        [0x00, 0x00, 0x01, 0x00, 0xFF, 0xFF, 0xE8, 0x03, 0x18, 0xFC, 0xFF, 0x7F, 0x00, 0x80, 0x55] =
      some (some ⟨.ok, 0, 0, [0xFF, 0xFF, 0x7F, 0xCE, 0x4E, 0x80, 0x00]⟩, none) := by decide

/-- P3 step 2. -/
theorem test_decb_codes :
    issued State.reset 0x040000000000 [0xFF, 0xFF, 0x7F, 0xCE, 0x4E, 0x80, 0x00] =
      some (some ⟨.ok, 0, 0, [0, 0, 0, 0, 0, 0, 0xDC, 0x03, 0x24, 0xFC, 0x7C, 0x7D, 0x84, 0x82]⟩, none) := by decide

/-- F7. -/
theorem test_decb_empty : issued State.reset 0x040000000000 [] = some (some ⟨.ok, 0, 0, []⟩, none) := by decide

/-! ## `RTP.RESET`, `RTP.BUILD` (3.4, P2) -/

/-- P1 step 1. -/
theorem test_reset_splits_the_draw :
    issued { State.reset with entropy := [0x1234DEADBEEF] } 0x100000000000 [] =
      some (some ⟨.ok, 0, 0, []⟩, some ⟨0x1234, 0, 0xDEADBEEF⟩) := by decide

/-- P4 step 4: an all-zero draw is legal and the old counters are lost (R132). -/
theorem test_reset_while_valid :
    issued { streaming 0xABCE 0xA0 0x11223344 with entropy := [0] } 0x100000000000 [] =
      some (some ⟨.ok, 0, 0, []⟩, some ⟨0, 0, 0⟩) := by decide

/-- F10: both wraps in one command. -/
theorem test_build_wraps :
    issued (streaming 0xFFFF 0xFFFFFF60 0xCAFEF00D) 0x1100000000A0 [0xFF] =
      some (some ⟨.ok, 0, 0, [0x80, 0x00, 0xFF, 0xFF, 0xFF, 0xFF, 0xFF, 0x60, 0xCA, 0xFE, 0xF0, 0x0D, 0xFF]⟩,
        some ⟨0, 0, 0xCAFEF00D⟩) := by decide

/-- F11b: payload type 128 is serialized as 0 (R72). -/
theorem test_build_masks_payload_type :
    issued (streaming 8 6 9) 0x118000000001 [] =
      some (some ⟨.ok, 0, 0, [0x80, 0x00, 0x00, 0x08, 0, 0, 0, 0x06, 0, 0, 0, 0x09]⟩, some ⟨9, 7, 9⟩) := by decide

/-! ## `RTP.PARSE`, `RTP.HDR` (3.5) -/

/-- F16: not RTP at all, the header is not examined. -/
theorem test_parse_does_not_look :
    issued State.reset 0x120000000000
        [0x00, 0x11, 0x22, 0x33, 0x44, 0x55, 0x66, 0x77, 0x88, 0x99, 0xAA, 0xBB, 0xCC, 0xDD] =
      some (some ⟨.ok, 0, 0, [0xCC, 0xDD]⟩, none) := by decide

/-- F14: header only. -/
theorem test_parse_header_only :
    issued State.reset 0x120000000000 [0x80, 0, 0x12, 0x34, 0, 0, 0, 0, 0xDE, 0xAD, 0xBE, 0xEF] =
      some (some ⟨.ok, 0, 0, []⟩, none) := by decide

/-- F19: returned as found. -/
theorem test_hdr_is_not_judged :
    issued State.reset 0x130000000000 [0xFF, 0xFF, 0, 1, 0, 0, 0, 2, 0, 0, 0, 3] =
      some (some ⟨.ok, 0, 0xFFFF00010000000200000003, []⟩, none) ∧
    hdrVersion 0xFFFF00010000000200000003 = 3 ∧ hdrFlags 0xFFFF00010000000200000003 = 0x3F ∧
    hdrMarker 0xFFFF00010000000200000003 = true ∧ hdrPayloadType 0xFFFF00010000000200000003 = 127 := by decide

/-- F17: eleven bytes. -/
theorem test_hdr_short :
    issued State.reset 0x130000000000 [0x80, 0, 0x12, 0x34, 0, 0, 0, 0, 0xDE, 0xAD, 0xBE] =
      some (some ⟨.badlen, 0, 0, []⟩, none) := by decide

/-! ## `TX.FRAME`, `RX.PKT` (3.6) -/

/-- F22 and F25: the empty frame is dropped in silence, but only with a valid stream (R185). -/
theorem test_tx_short_frame :
    issued (streaming 0x1234 0 0xDEADBEEF) 0x200000000000 [] =
      some (some ⟨.ok, 0, 0, []⟩, some ⟨0x1234, 0, 0xDEADBEEF⟩) ∧
    issued State.reset 0x200000000000 [] = some (some ⟨.nostream, 0, 0, []⟩, none) := by decide

/-- X12: over-long and `VALID = 0`: `BADLEN` comes first. -/
theorem test_tx_long_frame :
    execTxFrame (meeting State.reset (List.replicate 400 0)) =
      .next (refuse .badlen (meeting State.reset (List.replicate 400 0))) := by
  simp [-List.reduceReplicate, execTxFrame, withCapacity, meeting, State.reset, Config.standard]

/-- F29: payload type 8 is decoded as μ-law all the same. -/
theorem test_rx_any_payload_type :
    issued State.reset 0x210000000000 [0x80, 0x08, 0, 0, 0, 0, 0, 0, 0, 0, 0, 0, 0x00] =
      some (some ⟨.ok, 0, 0, [0x84, 0x82]⟩, none) := by decide

/-- F28: a truncated packet. -/
theorem test_rx_truncated :
    issued State.reset 0x210000000000 [0x80, 0, 0x12, 0x34] = some (some ⟨.ok, 0, 0, []⟩, none) := by decide

/-! ## Refusals and the run (3.7, R200, R213) -/

/-- X11: a reserved opcode is `ILLEGAL` whatever the state. -/
theorem test_reserved_step :
    issued (streaming 7 5 9) 0x050000000000 [1, 2, 3] = some (some ⟨.illegal, 0, 0, []⟩, some ⟨7, 5, 9⟩) := by decide

/-- R200, R202: a pulse of `rst` gives no response and leaves no stream. -/
theorem test_rst_pulse : outcome (step (facing (streaming 7 5 9) [.pulseRst])) = some (none, none) := by decide

/-! ## Faults (R8): the only accesses that raise them, reached by no command -/

theorem test_read_past_din_faults : memRead [1, 2] 1 2 = .error .dinOutOfRange := by rfl

theorem test_write_past_dout_faults : memWrite [1] 2 [3] = .error .doutGap := by rfl

/-! ## Witnesses: for each statement a concrete state and operands that meet its hypotheses together -/

/-- WorkedEncodingsAgree, ListedOpcodesDecodeToTheirSlices and the encoding clauses of the command statements: each
listed opcode is some word's. -/
theorem test_witness_listed_opcodes :
    opField 0x01FF123403E8 = 0x01 ∧ opField 0x0200000000CE = 0x02 ∧ opField 0x030000000000 = 0x03 ∧
    opField 0x040000000000 = 0x04 ∧ opField 0x100000000000 = 0x10 ∧ opField 0x116000000002 = 0x11 ∧
    opField 0x120000000000 = 0x12 ∧ opField 0x130000000000 = 0x13 ∧ opField 0x200000000000 = 0x20 ∧
    opField 0x21FFFFFFFFFF = 0x21 := by decide

/-- WordsDifferingInIgnoredFieldsAreOneCommand: two different words of one command, and two of different ones. -/
theorem test_witness_ignored_fields :
    (decode 0x01FF123403E8).toOption = some (.ulawEnc 0x03E8) ∧ (decode 0x0100000003E8).toOption = some (.ulawEnc 0x03E8) ∧
    (decode 0x0100000003E9).toOption ≠ some (.ulawEnc 0x03E8) := by decide

/-- ReservedOpcodeStepAnswersIllegal, StatusIsTheFirstCauseInOrder. -/
theorem test_witness_reserved_step :
    currentAction (facing State.reset [.issue 0x050000000000 []]) = some (.issue 0x050000000000 []) ∧
    opField 0x050000000000 ∉ ([0x01, 0x02, 0x03, 0x04, 0x10, 0x11, 0x12, 0x13, 0x20, 0x21] : List Byte) := by decide

/-- StepRunsTheDecodedCommand, and the step clause of EveryCommandCompletesWithOneResponse. -/
theorem test_witness_step_runs :
    currentAction (facing State.reset [.issue 0x0100000003E8 [1]]) = some (.issue 0x0100000003E8 [1]) ∧
    (decode 0x0100000003E8).toOption = some (.ulawEnc 0x03E8) ∧
    isNext (step (facing State.reset [.issue 0x0100000003E8 [1]])) = true := by decide

/-- ExhaustedProgramLeavesTheBlockIdle. -/
theorem test_witness_exhausted : State.reset.program.length ≤ State.reset.index := by decide

/-- HardwareResetStepClearsTheStream, and the first clause of OnlyResetsMoveValidAndSsrc. -/
theorem test_witness_rst :
    currentAction (facing (streaming 7 5 9) [.pulseRst]) = some .pulseRst ∧ (streaming 7 5 9).valid = true ∧
    after (step (facing (streaming 7 5 9) [.pulseRst])) (fun t => ! t.valid) = true := by decide

/-- The second clause of OnlyResetsMoveValidAndSsrc: `RTP.RESET` sets `VALID`, and on a valid stream changes `SSRC`. -/
theorem test_witness_stream_reset :
    State.reset.valid = false ∧
    after (step (facing { State.reset with entropy := [1] } [.issue 0x100000000000 []])) (fun t => t.valid) = true ∧
    after (step (facing { streaming 7 5 9 with entropy := [1] } [.issue 0x100000000000 []]))
      (fun t => t.valid && t.ssrc != 9) = true := by decide

/-- StepKeepsTheRunInvariant: the invariant holds and the step answers a next state. -/
theorem test_witness_invariant :
    (facing (streaming 7 5 9) [.issue 0x100000000000 []]).Inv ∧
    isNext (step (facing (streaming 7 5 9) [.issue 0x100000000000 []])) = true := by decide

/-- UlawEncFollowsTheAlgorithm, CodecQuantitiesStayInWidth, RoundTripErrorIsWithinHalfAStep: both ends of the sample
range, and the greatest exponent and mantissa. -/
theorem test_witness_sample_range :
    (-32768 : Int) ≤ -32768 ∧ (-32768 : Int) ≤ 32767 ∧ (-32768 : Int) ≤ 32767 ∧ (32767 : Int) ≤ 32767 ∧
    (7 : Nat) ≤ 7 ∧ (15 : Nat) ≤ 15 := by decide

/-- EncoderSegmentsAreTheTable: samples on either side of the boundary between segments 0 and 1, two cells of one
segment, and the round trip's fields at the clamp value. -/
theorem test_witness_segments :
    ((~~~ ulawEnc 123).extractLsb' 4 3).toNat = 0 ∧ ((~~~ ulawEnc 124).extractLsb' 4 3).toNat = 1 ∧
    ((~~~ ulawEnc (-379)).extractLsb' 4 3).toNat = 1 ∧ (379 : Int).natAbs ≤ 32635 ∧
    ((~~~ ulawEnc 32635).extractLsb' 4 3).toNat = 7 ∧ ((~~~ ulawEnc 32635).extractLsb' 0 4).toNat = 15 ∧
    (32635 : Int).natAbs ≤ 32635 := by decide

/-- EncoderProperties, and the corner clauses of UlawEncCommand: at the edges of each range. -/
theorem test_witness_encoder_corners :
    min (3 : Int).natAbs 32635 ≤ min (4 : Int).natAbs 32635 ∧ (-32768 : Int) < -32767 ∧ (-32767 : Int) ≠ 0 ∧
    (0x7E : Byte) ≠ 0x7F ∧ ulawEnc 0 = 0xFF ∧ ulawEnc 3 = 0xFF ∧ ulawEnc (-3) = 0x7F ∧ ulawEnc (-1) = 0x7F ∧
    ulawEnc 32635 = 0x80 ∧ ulawEnc (-32635) = 0x00 := by decide

/-- The capacity hypotheses at the boundary: 2060 bytes are within the default capacity, 2061 are over it. -/
theorem test_witness_capacity :
    WithinCapacity (meeting State.reset (List.replicate 2060 0)) ∧
    (meeting State.reset (List.replicate 2061 0)).config.dinMax < (meeting State.reset (List.replicate 2061 0)).din.length := by
  simp [-List.reduceReplicate, meeting, WithinCapacity, State.reset, Config.standard]

/-- UlawEncbCommand: the items and the worked example. -/
theorem test_witness_encb :
    WithinCapacity (meeting State.reset [0xE8, 0x03, 0x18, 0xFC, 0x55]) ∧
    ([0xE8, 0x03, 0x18, 0xFC, 0x55] : Buffer)[2 * 1]? = some 0x18 ∧
    ([0xE8, 0x03, 0x18, 0xFC, 0x55] : Buffer)[2 * 1 + 1]? = some 0xFC := by decide

/-- UlawDecbCommand, and both batch round trips (2 * 3 bytes are within capacity). -/
theorem test_witness_decb :
    WithinCapacity (meeting State.reset [0xCE, 0x4E, 0x80]) ∧ ([0xCE, 0x4E, 0x80] : Buffer)[2]? = some 0x80 ∧
    2 * (meeting State.reset [0xCE, 0x7F, 0x80]).din.length ≤ Config.standard.dinMax := by decide

/-- The silence examples of UlawEncbCommand, UlawDecbCommand, TxFrameCommand and SilenceGoesThroughEndToEnd, and the
whole-frame hypotheses. -/
theorem test_witness_whole_frame :
    WithinCapacity (meeting (streaming 0x1234 0 0xDEADBEEF) (List.replicate 320 0)) ∧
    (meeting (streaming 0x1234 0 0xDEADBEEF) (List.replicate 320 0)).valid = true ∧
    (meeting (streaming 0x1234 0 0xDEADBEEF) (List.replicate 320 0)).din.length = 320 ∧
    WithinCapacity (meeting State.reset (List.replicate 160 0xFF)) := by
  simp [-List.reduceReplicate, meeting, streaming, WithinCapacity, State.reset, Config.standard]

/-- TxFrameCommand: each refusal and the short frame, at the lengths where they meet. -/
theorem test_witness_tx_clauses :
    (320 < (meeting State.reset (List.replicate 321 0)).din.length ∧
      WithinCapacity (meeting State.reset (List.replicate 321 0))) ∧
    ((meeting State.reset (List.replicate 320 0)).din.length ≤ 320 ∧
      WithinCapacity (meeting State.reset (List.replicate 320 0)) ∧
      (meeting State.reset (List.replicate 320 0)).valid = false) ∧
    (meeting (streaming 7 5 9) (List.replicate 319 0)).din.length < 320 ∧
      WithinCapacity (meeting (streaming 7 5 9) (List.replicate 319 0)) ∧
      (meeting (streaming 7 5 9) (List.replicate 319 0)).valid = true := by
  simp [-List.reduceReplicate, meeting, streaming, WithinCapacity, State.reset, Config.standard]

/-- RtpResetCommand: with a stated draw. -/
theorem test_witness_reset :
    WithinCapacity { State.reset with entropy := [0x1234DEADBEEF] } ∧
    ({ State.reset with entropy := [0x1234DEADBEEF] } : State).entropy = 0x1234DEADBEEF :: [] := by decide

/-- RtpBuildCommand, ParseUndoesBuild, HeaderReadBackGivesWhatWasSet: with a stream and without one. -/
theorem test_witness_build :
    WithinCapacity (meeting (streaming 0xFFFF 0 1) [0xFF, 0x7F]) ∧ (meeting (streaming 0xFFFF 0 1) [0xFF, 0x7F]).valid = true ∧
    12 + (meeting (streaming 0xFFFF 0 1) [0xFF, 0x7F]).din.length ≤ Config.standard.dinMax ∧
    WithinCapacity (meeting State.reset [0xFF, 0x7F]) ∧ (meeting State.reset [0xFF, 0x7F]).valid = false := by decide

/-- FirstPacketAfterStreamResetCarriesTheDraw, AfterResetOnlyTheBuildsAreRefused: both kinds of command, on a `DIN` of
12 bytes. -/
theorem test_witness_after_reset :
    (packet96.take 12).length ≤ 2060 ∧ statelessCommand .rtpHdr = true ∧ 12 ≤ (packet96.take 12).length ∧
    (packet96.take 12).length ≤ 320 ∧ WithinCapacity (meeting State.reset (packet96.take 12)) := by decide

/-- RtpParseCommand, RtpHdrCommand, RxPktCommand: 11, 12 and more bytes. -/
theorem test_witness_packets :
    WithinCapacity (meeting State.reset packet96) ∧ 12 < (meeting State.reset packet96).din.length ∧
    12 ≤ (meeting State.reset (packet96.take 12)).din.length ∧ (meeting State.reset (packet96.take 12)).din.length ≤ 12 ∧
    (meeting State.reset (packet96.take 11)).din.length < 12 ∧ packet96[12 + 2]? = some 0x03 := by decide

/-- The worked examples of R104, R108, R138 and R163: their `DIN` is within capacity. -/
theorem test_witness_worked_examples :
    WithinCapacity State.reset ∧
    WithinCapacity (meeting State.reset [0x80, 0x00, 0x12, 0x34, 0, 0, 0, 0, 0xDE, 0xAD, 0xBE, 0xEF, 0xAA, 0xBB]) ∧
    WithinCapacity (meeting State.reset [0x80, 0x00, 0x12, 0x34]) ∧
    WithinCapacity (meeting State.reset [0x80, 0x00, 0x12, 0x34, 0, 0, 0, 0, 0xDE, 0xAD, 0xBE, 0xEF, 0xCE, 0x4E]) := by
  decide

/-- HeaderBitsDoNotReachTheReceivePath: two packets that differ in the header only. -/
theorem test_witness_header_bits :
    packet96.length = (0x00 :: packet96.drop 1).length ∧ packet96.drop 12 = (0x00 :: packet96.drop 1).drop 12 ∧
    packet96 ≠ 0x00 :: packet96.drop 1 := by decide

/-- RefusalsChangeNothingButTheResponse: a command refused, alone and as a step. -/
theorem test_witness_refusal :
    after (exec (.rtpBuild 0 160) State.reset) (fun t => t.response.status != .ok) = true ∧
    currentAction (facing State.reset [.issue 0x1100000000A0 []]) = some (.issue 0x1100000000A0 []) ∧
    issued State.reset 0x1100000000A0 [] = some (some ⟨.nostream, 0, 0, []⟩, none) := by decide

/-- AccessTableHolds: each premise is met by some command and state. -/
theorem test_witness_access :
    statelessCommand .ulawEncb = true ∧ isNext (exec .ulawEncb State.reset) = true ∧
    after (exec .rtpReset { State.reset with entropy := [1] }) (fun t => t.response.status == .ok) = true ∧
    after (exec (.rtpBuild 0 160) (streaming 7 5 9)) (fun t => t.response.status == .ok) = true ∧
    after (exec .txFrame (streaming 7 5 9)) (fun t => t.response.dout == []) = true := by decide

set_option maxRecDepth 100000 in
/-- AccessTableHolds: a whole frame gives a `TX.FRAME` with status `OK` and a nonempty `DOUT`. -/
theorem test_witness_access_whole_frame :
    after (exec .txFrame (meeting (streaming 7 5 9) (List.replicate 320 0)))
      (fun t => t.response.status == .ok && t.response.dout != []) = true := by decide

/-- StatelessCommandsArePureFunctions, CommandSeesOnlyItsOwnInputs: two states that differ in what the command does not
see, the bits of `SEQ` with `VALID = 0` among them (log entry 1). -/
theorem test_witness_inputs :
    statelessCommand .rtpParse = true ∧ State.reset.din = (streaming 7 5 9).din ∧
    State.reset.config = (streaming 7 5 9).config ∧
    State.reset.stream = ({ State.reset with seq := 7, entropy := [] } : State).stream ∧
    State.reset ≠ { State.reset with seq := 7 } := by decide

/-- CommandSeesOnlyItsOwnInputs: the same next draw. -/
theorem test_witness_same_draw : State.reset.rnd = ({ State.reset with seq := 7 } : State).rnd := rfl

/-- StepAdvancesTheStreamByThePacketBuilt: a step that builds a packet, and one that builds none. -/
theorem test_witness_packet_step :
    currentAction (facing (streaming 7 5 9) [.issue 0x1100000000A0 []]) = some (.issue 0x1100000000A0 []) ∧
    after (step (facing (streaming 7 5 9) [.issue 0x1100000000A0 []]))
      (fun t => t.responses.any fun r => (packetBuilt (.issue 0x1100000000A0 [], r)).isSome) = true ∧
    currentAction (facing (streaming 7 5 9) [.issue 0x200000000000 []]) = some (.issue 0x200000000000 []) ∧
    after (step (facing (streaming 7 5 9) [.issue 0x200000000000 []]))
      (fun t => t.responses.any fun r => packetBuilt (.issue 0x200000000000 [], r) == none) = true := by decide

/-- PacketsOfARunCarryConsecutiveCounters: a run of a build, a short frame and a reserved word; the build's packet is
the one counted. -/
theorem test_witness_run :
    (facing (streaming 7 5 9) [.issue 0x1100000000A0 [], .issue 0x200000000000 [], .issue 0 []]).program.drop 0 =
      [.issue 0x1100000000A0 [], .issue 0x200000000000 [], .issue 0 []] ∧
    (decode 0x1100000000A0).toOption ≠ some .rtpReset ∧ (decode 0x200000000000).toOption ≠ some .rtpReset ∧
    (decode 0).toOption ≠ some .rtpReset ∧
    packetBuilt (.issue 0x1100000000A0 [], ⟨.ok, 0, 0, [1]⟩) = some (160, [1]) := by decide

/-- ReceivePathDoesNotDisturbTheSendPath: a program of both kinds. -/
theorem test_witness_interleaving :
    ∀ a ∈ [HostAction.issue 0x1100000000A0 [], .issue 0x120000000000 []], ∃ cw din, a = .issue cw din := by
  intro a h
  cases a with
  | issue cw din => exact ⟨cw, din, rfl⟩
  | pulseRst => exact absurd h (by decide)

end Sys2Proof.Tests
end

/-! The run of the block (spec/00_scope.md): what each command answers, what a step does, and the invariant of a run. -/

namespace Sys2Proof.Machine

/-! ## What each command answers (R42, R104 to R163)

`exec` on a state over capacity and within it, one equation per case. -/

/-- R42, R183 (a): the capacity check comes first in every command. -/
theorem exec_over_capacity {s : State} (h : s.config.dinMax < s.din.length) (i : Instr) :
    exec i s = .next (refuse .badlen s) := by
  cases i <;> exact withCapacity_of_lt h _

section InCapacity
variable {s : State} (h : WithinCapacity s)
include h

theorem exec_ulawEnc (x : Sample) :
    exec (.ulawEnc x) s = .next (respond (Response.okScalar (zext16 (ulawEnc (signed16 x)))) s) :=
  withCapacity_of_le h _

theorem exec_ulawDec (u : Byte) :
    exec (.ulawDec u) s = .next (respond (Response.okScalar (twos16 (ulawDec u))) s) :=
  withCapacity_of_le h _

theorem exec_ulawEncb :
    exec .ulawEncb s = .next (respond (Response.okDout (codesFrom s.din 0 (s.din.length / 2))) s) := by
  refine (withCapacity_of_le h _).trans ?_
  rw [encodeLoop_eq _ _ _ _ _ rfl (by omega), finish_ok, List.nil_append]

theorem exec_ulawDecb :
    exec .ulawDecb s = .next (respond (Response.okDout (pcmFrom s.din 0 0 s.din.length)) s) := by
  refine (withCapacity_of_le h _).trans ?_
  rw [decodeLoop_eq _ _ _ _ _ rfl (by omega), finish_ok, List.nil_append]

theorem exec_rtpReset :
    exec .rtpReset s = .next (respond Response.okEmpty (setValid (openStream s.rnd (consumeDraw s)))) :=
  withCapacity_of_le h _

theorem exec_rtpBuild_of_invalid (hv : s.valid = false) (pt : Byte) (sc : BitVec 32) :
    exec (.rtpBuild pt sc) s = .next (refuse .nostream s) :=
  (withCapacity_of_le h _).trans (withStream_of_invalid hv _)

theorem exec_rtpBuild_of_valid (hv : s.valid = true) (pt : Byte) (sc : BitVec 32) :
    exec (.rtpBuild pt sc) s =
      .next (respond (Response.okDout (rtpHeader pt s.seq s.ts s.ssrc ++ s.din)) (advanceStream sc s)) := by
  refine (withCapacity_of_le h _).trans ((withStream_of_valid hv _).trans ?_)
  simp only [memWrite_nil, memRead_all]
  exact congrArg (finish · _) (memWrite_at_end (rtpHeader_length ..))

/-- The bytes after the header; a packet of at most 12 bytes has none (R48). -/
theorem exec_rtpParse : exec .rtpParse s = .next (respond (Response.okDout (s.din.drop headerSize)) s) := by
  refine (withCapacity_of_le h _).trans ?_
  split
  · next hl => rw [List.drop_eq_nil_of_le hl]; rfl
  · next hl =>
    rw [memRead_to_end (by omega)]
    exact congrArg (finish · _) (memWrite_nil _)

theorem exec_rtpHdr_of_short (hl : s.din.length < headerSize) : exec .rtpHdr s = .next (refuse .badlen s) :=
  (withCapacity_of_le h _).trans (if_pos hl)

theorem exec_rtpHdr_of_long (hl : headerSize ≤ s.din.length) :
    exec .rtpHdr s = .next (respond (Response.okHdr (headerValue (s.din.take headerSize))) s) := by
  refine (withCapacity_of_le h _).trans ((if_neg (by omega)).trans ?_)
  rw [memRead_of_le (by omega), finish_ok, List.drop_zero]

theorem exec_txFrame_of_long (hl : frameBytes < s.din.length) : exec .txFrame s = .next (refuse .badlen s) :=
  (withCapacity_of_le h _).trans (if_pos hl)

theorem exec_txFrame_of_invalid (hl : s.din.length ≤ frameBytes) (hv : s.valid = false) :
    exec .txFrame s = .next (refuse .nostream s) :=
  (withCapacity_of_le h _).trans ((if_neg (by omega)).trans (withStream_of_invalid hv _))

/-- A short frame is accepted and sends nothing (R161). -/
theorem exec_txFrame_of_short (hl : s.din.length < frameBytes) (hv : s.valid = true) :
    exec .txFrame s = .next (respond Response.okEmpty s) :=
  (withCapacity_of_le h _).trans ((if_neg (by omega)).trans ((withStream_of_valid hv _).trans (if_pos hl)))

theorem exec_txFrame_of_whole (hl : s.din.length = frameBytes) (hv : s.valid = true) :
    exec .txFrame s =
      .next (respond (Response.okDout (rtpHeader ptPcmu s.seq s.ts s.ssrc ++ codesFrom s.din 0 frameSamples))
        (advanceStream (BitVec.ofNat 32 frameSamples) s)) := by
  refine (withCapacity_of_le h _).trans ((if_neg (by omega)).trans ((withStream_of_valid hv _).trans
    ((if_neg (by omega)).trans ?_)))
  simp only [memWrite_nil]
  exact congrArg (finish · _) (encodeLoop_eq _ _ _ _ _ rfl hl.ge)

/-- The payload decoded; a packet of at most 12 bytes has none (R48). -/
theorem exec_rxPkt :
    exec .rxPkt s = .next (respond (Response.okDout (pcmFrom s.din headerSize 0 (s.din.length - headerSize))) s) := by
  refine (withCapacity_of_le h _).trans ?_
  split
  · next hl => rw [Nat.sub_eq_zero_of_le hl]; rfl
  · next hl => rw [decodeLoop_eq _ _ _ _ _ rfl (by omega), finish_ok, List.nil_append]

end InCapacity

/-! ## How a command ends (R21, R42, R68) -/

/-- What a command leaves alone of the configuration and of the record of the run (log entries 3 and 4). -/
structure SameRecord (s t : State) : Prop where
  config : t.config = s.config
  program : t.program = s.program
  index : t.index = s.index
  responses : t.responses = s.responses

/-- A command met in `s` may end in `t`: the record stands, and the response is well formed (R68) and, on a conformant
block, within `DOUT_MAX` (R42). -/
structure CompletesTo (s t : State) : Prop extends SameRecord s t where
  wellFormed : t.response.WellFormed
  fits : s.config.Conformant → t.response.Fits s.config

theorem SameRecord.refl (s : State) : SameRecord s s := ⟨rfl, rfl, rfl, rfl⟩

theorem sameRecord_advanceStream (n : BitVec 32) (s : State) : SameRecord s (advanceStream n s) := ⟨rfl, rfl, rfl, rfl⟩

theorem sameRecord_openStream (d : Draw) (s : State) :
    SameRecord s (setValid (openStream d (consumeDraw s))) := ⟨rfl, rfl, rfl, rfl⟩

/-- A refusal carries no data (R181). -/
theorem completesTo_refuse (c : Status) (s : State) : CompletesTo s (refuse c s) where
  toSameRecord := ⟨rfl, rfl, rfl, rfl⟩
  wellFormed _ := ⟨rfl, rfl, rfl⟩
  fits _ := Nat.zero_le _

/-- A response with status `OK` may carry anything that fits. -/
theorem completesTo_respond {s u : State} {r : Response} (hu : SameRecord s u) (hr : r.status = .ok)
    (hfit : s.config.Conformant → r.Fits s.config) : CompletesTo s (respond r u) where
  toSameRecord := ⟨hu.config, hu.program, hu.index, hu.responses⟩
  wellFormed hne := absurd hr hne
  fits := hfit

/-- The case of a response without `DOUT`. -/
theorem completesTo_respond_of_dout_nil {s u : State} {r : Response} (hu : SameRecord s u) (hr : r.status = .ok)
    (hd : r.dout = []) : CompletesTo s (respond r u) :=
  completesTo_respond hu hr fun _ => by simp [hd]

/-- The case of a response with nothing but `DOUT`, by its length on a conformant block. -/
theorem completesTo_respond_okDout {s u : State} {b : Buffer} (hu : SameRecord s u)
    (hb : 2060 ≤ s.config.dinMax → b.length ≤ 2 * s.config.dinMax) :
    CompletesTo s (respond (Response.okDout b) u) :=
  completesTo_respond hu rfl hb

/-- Within capacity every command completes: the longest `DOUT` for its input is that of `ULAW.DECB`, two bytes per byte
of `DIN`, and a packet adds 12 bytes to its payload (R42). -/
theorem exec_completes_within_capacity {s : State} (h : WithinCapacity s) (i : Instr) :
    ∃ t, exec i s = .next t ∧ CompletesTo s t := by
  cases i with
  | ulawEnc x => exact ⟨_, exec_ulawEnc h x, completesTo_respond_of_dout_nil (.refl s) rfl rfl⟩
  | ulawDec u => exact ⟨_, exec_ulawDec h u, completesTo_respond_of_dout_nil (.refl s) rfl rfl⟩
  | ulawEncb =>
    refine ⟨_, exec_ulawEncb h, completesTo_respond_okDout (.refl s) fun _ => ?_⟩
    rw [codesFrom_length]; omega
  | ulawDecb =>
    refine ⟨_, exec_ulawDecb h, completesTo_respond_okDout (.refl s) fun _ => ?_⟩
    rw [pcmFrom_length]; omega
  | rtpReset =>
    exact ⟨_, exec_rtpReset h, completesTo_respond_of_dout_nil (sameRecord_openStream ..) rfl rfl⟩
  | rtpBuild pt sc =>
    cases hv : s.valid with
    | false => exact ⟨_, exec_rtpBuild_of_invalid h hv pt sc, completesTo_refuse ..⟩
    | true =>
      refine ⟨_, exec_rtpBuild_of_valid h hv pt sc, completesTo_respond_okDout (sameRecord_advanceStream ..) fun _ => ?_⟩
      rw [List.length_append, rtpHeader_length]; omega
  | rtpParse =>
    refine ⟨_, exec_rtpParse h, completesTo_respond_okDout (.refl s) fun _ => ?_⟩
    rw [List.length_drop]; omega
  | rtpHdr =>
    rcases Nat.lt_or_ge s.din.length headerSize with hl | hl
    · exact ⟨_, exec_rtpHdr_of_short h hl, completesTo_refuse ..⟩
    · exact ⟨_, exec_rtpHdr_of_long h hl, completesTo_respond_of_dout_nil (.refl s) rfl rfl⟩
  | txFrame =>
    rcases Nat.lt_or_ge frameBytes s.din.length with hl | hl
    · exact ⟨_, exec_txFrame_of_long h hl, completesTo_refuse ..⟩
    cases hv : s.valid with
    | false => exact ⟨_, exec_txFrame_of_invalid h hl hv, completesTo_refuse ..⟩
    | true =>
      rcases hl.lt_or_eq with hl | hl
      · exact ⟨_, exec_txFrame_of_short h hl hv, completesTo_respond_of_dout_nil (.refl s) rfl rfl⟩
      · refine ⟨_, exec_txFrame_of_whole h hl hv, completesTo_respond_okDout (sameRecord_advanceStream ..) fun _ => ?_⟩
        simp only [List.length_append, rtpHeader_length, codesFrom_length, frameSamples]; omega
  | rxPkt =>
    refine ⟨_, exec_rxPkt h, completesTo_respond_okDout (.refl s) fun _ => ?_⟩
    rw [pcmFrom_length]; omega

/-- R42, R48, R68: every command completes, in every state. -/
theorem exec_completes (i : Instr) (s : State) : ∃ t, exec i s = .next t ∧ CompletesTo s t := by
  rcases Nat.lt_or_ge s.config.dinMax s.din.length with h | h
  · exact ⟨_, exec_over_capacity h i, completesTo_refuse ..⟩
  · exact exec_completes_within_capacity h i

/-! ## What a step does (R10, R21, R195, R202) -/

theorem currentAction_eq_none_iff {s : State} : currentAction s = none ↔ s.program.length ≤ s.index :=
  List.getElem?_eq_none_iff

theorem index_lt_of_currentAction {s : State} {a : HostAction} (h : currentAction s = some a) :
    s.index < s.program.length :=
  (List.getElem?_eq_some_iff.1 h).1

theorem step_of_exhausted {s : State} (h : currentAction s = none) : step s = .next s := by
  simp only [step, h, idle]

theorem step_of_pulseRst {s : State} (h : currentAction s = some .pulseRst) : step s = .next (takeReset s) := by
  simp only [step, h]

theorem step_of_decode_error {s : State} {cw : CommandWord} {din : Buffer} {e : DecodeError}
    (h : currentAction s = some (.issue cw din)) (hd : decode cw = .error e) :
    step s = .next (retire (refuse .illegal (accept din s))) := by
  simp only [step, h, hd]

theorem step_of_decode_ok {s : State} {cw : CommandWord} {din : Buffer} {i : Instr}
    (h : currentAction s = some (.issue cw din)) (hd : decode cw = .ok i) :
    step s = onNext retire (exec i (accept din s)) := by
  simp only [step, h, hd]

/-- A word issued, listed or reserved, completes and its response is taken. -/
theorem step_of_issue {s : State} {cw : CommandWord} {din : Buffer} (h : currentAction s = some (.issue cw din)) :
    ∃ u, step s = .next (retire u) ∧ CompletesTo (accept din s) u := by
  cases hd : decode cw with
  | error e => exact ⟨_, step_of_decode_error h hd, completesTo_refuse ..⟩
  | ok i =>
    obtain ⟨u, hu, hc⟩ := exec_completes i (accept din s)
    exact ⟨u, by rw [step_of_decode_ok h hd, hu, onNext_next], hc⟩

/-- A step stays idle, takes a reset pulse, or takes the response of a command that completed. -/
theorem step_cases {s t : State} (h : step s = .next t) :
    (s.program.length ≤ s.index ∧ t = s) ∨
    (currentAction s = some .pulseRst ∧ t = takeReset s) ∨
    ∃ cw din u, currentAction s = some (.issue cw din) ∧ CompletesTo (accept din s) u ∧ t = retire u := by
  match ha : currentAction s with
  | none =>
    rw [step_of_exhausted ha] at h
    exact .inl ⟨currentAction_eq_none_iff.1 ha, by cases h; rfl⟩
  | some .pulseRst =>
    rw [step_of_pulseRst ha] at h
    exact .inr (.inl ⟨rfl, by cases h; rfl⟩)
  | some (.issue cw din) =>
    obtain ⟨u, hu, hc⟩ := step_of_issue ha
    rw [hu] at h
    exact .inr (.inr ⟨cw, din, u, rfl, hc, by cases h; rfl⟩)

/-! ## The invariant of a run -/

/-- A reset pulse inside the program keeps the invariant: it gives no response (R200). -/
theorem inv_takeReset {s : State} (hs : s.Inv) (hi : s.index < s.program.length) : (takeReset s).Inv := by
  obtain ⟨hconf, -, -, -, hresp⟩ := hs
  exact ⟨hconf, rfl, rfl, hi, hresp⟩

/-- Taking the response of a completed command keeps the invariant: the buffers go, and the one response that joins the
record is the command's own. -/
theorem inv_retire {s u : State} {din : Buffer} (hs : s.Inv) (hi : s.index < s.program.length)
    (hc : CompletesTo (accept din s) u) : (retire u).Inv := by
  obtain ⟨hconf, -, -, -, hresp⟩ := hs
  obtain ⟨⟨config, program, index, responses⟩, wellFormed, fits⟩ := hc
  simp only [accept_config, accept_program, accept_index, accept_responses] at config program index responses fits
  refine ⟨by simpa [config], rfl, rfl, by simpa [program, index], fun r hr => ?_⟩
  rw [retire_config, config]
  rw [retire_responses, responses, List.mem_append, List.mem_singleton] at hr
  obtain hr | rfl := hr
  · exact hresp r hr
  · exact ⟨wellFormed, fits hconf⟩

/-! ## The obligations -/

/-- Settles O13, by the three things a step can do. -/
theorem stepKeepsTheRunInvariant : Obligations.StepKeepsTheRunInvariant := by
  intro s t hs h
  obtain ⟨-, rfl⟩ | ⟨ha, rfl⟩ | ⟨cw, din, u, ha, hc, rfl⟩ := step_cases h
  · exact hs
  · exact inv_takeReset hs (index_lt_of_currentAction ha)
  · exact inv_retire hs (index_lt_of_currentAction ha) hc

/-- Settles O8: the statement is `step_of_decode_ok` with `accept`, `onNext` and `retire` written out. -/
theorem stepRunsTheDecodedCommand : Obligations.StepRunsTheDecodedCommand := by
  intro s cw din i ha hd
  exact step_of_decode_ok ha hd

/-- Settles O14: nothing has been given, and 2060 is conformant. -/
theorem resetHasTheRunInvariant : Obligations.ResetHasTheRunInvariant :=
  ⟨Nat.le_refl 2060, rfl, rfl, Nat.le_refl 0, fun _ hr => absurd hr List.not_mem_nil⟩

end Sys2Proof.Machine

/-! The state elements of the block (spec/10_state.md): what one command does to `VALID`, `SEQ`, `TS` and `SSRC`, which
inputs it sees, and the counters the packets of a run carry. -/

namespace Sys2Proof.Machine

/-! ## The packet in a response (R28) -/

/-- `packetBuilt` with the word already decoded: the packet the response of a command carries. -/
def packetOf (i : Instr) (r : Response) : Option (BitVec 32 × Buffer) :=
  match i with
  | .rtpBuild _ sc => if r.status = .ok then some (sc, r.dout) else none
  | .txFrame => if r.status = .ok ∧ r.dout ≠ [] then some (160, r.dout) else none
  | _ => none

theorem packetBuilt_of_decode_ok {cw : CommandWord} {i : Instr} (h : decode cw = .ok i) (din : Buffer) (r : Response) :
    packetBuilt (.issue cw din, r) = packetOf i r := by
  unfold packetBuilt
  dsimp only
  rw [h]
  cases i <;> rfl

theorem packetBuilt_of_decode_error {cw : CommandWord} {e : DecodeError} (h : decode cw = .error e) (din : Buffer)
    (r : Response) : packetBuilt (.issue cw din, r) = none := by
  unfold packetBuilt
  dsimp only
  rw [h]

theorem packetOf_of_stateless {i : Instr} (h : statelessCommand i = true) (r : Response) : packetOf i r = none := by
  cases i with
  | rtpBuild => cases h
  | txFrame => cases h
  | _ => rfl

theorem packetOf_of_not_ok {r : Response} (h : r.status ≠ .ok) (i : Instr) : packetOf i r = none := by
  cases i with
  | rtpBuild => exact if_neg h
  | txFrame => exact if_neg fun hok => h hok.1
  | _ => rfl

theorem packetOf_rtpBuild {r : Response} (h : r.status = .ok) (pt : Byte) (sc : BitVec 32) :
    packetOf (.rtpBuild pt sc) r = some (sc, r.dout) :=
  if_pos h

theorem packetOf_txFrame {r : Response} (h : r.status = .ok) (hd : r.dout ≠ []) :
    packetOf .txFrame r = some (160, r.dout) :=
  if_pos ⟨h, hd⟩

/-- The bytes of a packet from 2 to 11 are the sequence number, the timestamp and the SSRC (R70). -/
theorem counters_of_packet (pt : Byte) (seq : BitVec 16) (ts ssrc : BitVec 32) (payload : Buffer) :
    ((rtpHeader pt seq ts ssrc ++ payload).drop 2).take 10 = bytesBe16 seq ++ bytesBe32 ts ++ bytesBe32 ssrc := rfl

/-! ## What a command does to the state (R22 to R25, R27) -/

/-- The effect of an accepted stream reset (R131). -/
def startStream (s : State) : State := respond Response.okEmpty (setValid (openStream s.rnd (consumeDraw s)))

/-- The effect of an accepted build with this payload type, sample count and payload (R134, R160). -/
def sendPacket (pt : Byte) (sc : BitVec 32) (payload : Buffer) (s : State) : State :=
  respond (Response.okDout (rtpHeader pt s.seq s.ts s.ssrc ++ payload)) (advanceStream sc s)

/-- The state transformer a command met in `s` amounts to: it answers and touches nothing else, it opens a stream, or it
builds a packet. -/
inductive Effect (i : Instr) (s : State) : (State → State) → Prop where
  | answers (r : Response) (hp : packetOf i r = none) (hr : i = .rtpReset → r.status ≠ .ok) : Effect i s (respond r)
  | opens (hi : i = .rtpReset) (h : WithinCapacity s) : Effect i s startStream
  | builds (pt : Byte) (sc : BitVec 32) (payload : Buffer) (hv : s.valid = true)
      (hp : packetOf i (sendPacket pt sc payload s).response = some (sc, (sendPacket pt sc payload s).response.dout)) :
      Effect i s (sendPacket pt sc payload)

theorem effect_refuse {i : Instr} {s : State} {c : Status} (hc : c ≠ .ok) : Effect i s (refuse c) :=
  .answers (Response.refusal c) (packetOf_of_not_ok hc i) fun _ => hc

theorem withinCapacity_of_eq {s s' : State} (h : WithinCapacity s) (hc : s'.config = s.config) (hd : s'.din = s.din) :
    WithinCapacity s' := by
  rwa [WithinCapacity, hc, hd]

/-- R50: with `DIN` and `DIN_MAX` fixed, a stateless command has one response, whatever the rest of the state. -/
theorem exec_of_stateless {i : Instr} (hi : statelessCommand i = true) (s : State) :
    ∃ r, ∀ s' : State, s'.config = s.config → s'.din = s.din → exec i s' = .next (respond r s') := by
  rcases Nat.lt_or_ge s.config.dinMax s.din.length with h | h
  · exact ⟨Response.refusal .badlen, fun s' hc hd => exec_over_capacity (by rwa [hc, hd]) i⟩
  cases i with
  | ulawEnc x => exact ⟨_, fun s' hc hd => exec_ulawEnc (withinCapacity_of_eq h hc hd) x⟩
  | ulawDec u => exact ⟨_, fun s' hc hd => exec_ulawDec (withinCapacity_of_eq h hc hd) u⟩
  | ulawEncb => exact ⟨_, fun s' hc hd => hd ▸ exec_ulawEncb (withinCapacity_of_eq h hc hd)⟩
  | ulawDecb => exact ⟨_, fun s' hc hd => hd ▸ exec_ulawDecb (withinCapacity_of_eq h hc hd)⟩
  | rtpParse => exact ⟨_, fun s' hc hd => hd ▸ exec_rtpParse (withinCapacity_of_eq h hc hd)⟩
  | rtpHdr =>
    rcases Nat.lt_or_ge s.din.length headerSize with hl | hl
    · exact ⟨_, fun s' hc hd => exec_rtpHdr_of_short (withinCapacity_of_eq h hc hd) (by rwa [hd])⟩
    · exact ⟨_, fun s' hc hd => hd ▸ exec_rtpHdr_of_long (withinCapacity_of_eq h hc hd) (by rwa [hd])⟩
  | rxPkt => exact ⟨_, fun s' hc hd => hd ▸ exec_rxPkt (withinCapacity_of_eq h hc hd)⟩
  | rtpReset => cases hi
  | rtpBuild => cases hi
  | txFrame => cases hi

/-- R27, R50, R184: `DIN`, `DIN_MAX` and `VALID` alone decide which effect a command has. -/
theorem exec_effect (i : Instr) (s : State) :
    ∃ f, Effect i s f ∧
      ∀ s' : State, s'.config = s.config → s'.din = s.din → s'.valid = s.valid → exec i s' = .next (f s') := by
  rcases Nat.lt_or_ge s.config.dinMax s.din.length with h | h
  · exact ⟨_, effect_refuse (by decide), fun s' hc hd _ => exec_over_capacity (by rwa [hc, hd]) i⟩
  cases hi : statelessCommand i with
  | true =>
    obtain ⟨r, hr⟩ := exec_of_stateless hi s
    exact ⟨_, .answers r (packetOf_of_stateless hi r) (by rintro rfl; cases hi), fun s' hc hd _ => hr s' hc hd⟩
  | false =>
    cases i with
    | rtpReset => exact ⟨_, .opens rfl h, fun s' hc hd _ => exec_rtpReset (withinCapacity_of_eq h hc hd)⟩
    | rtpBuild pt sc =>
      cases hv : s.valid with
      | false =>
        exact ⟨_, effect_refuse (by decide),
          fun s' hc hd hv' => exec_rtpBuild_of_invalid (withinCapacity_of_eq h hc hd) hv' pt sc⟩
      | true =>
        exact ⟨_, .builds pt sc s.din hv (packetOf_rtpBuild rfl pt sc),
          fun s' hc hd hv' => hd ▸ exec_rtpBuild_of_valid (withinCapacity_of_eq h hc hd) hv' pt sc⟩
    | txFrame =>
      rcases Nat.lt_or_ge frameBytes s.din.length with hl | hl
      · exact ⟨_, effect_refuse (by decide),
          fun s' hc hd _ => exec_txFrame_of_long (withinCapacity_of_eq h hc hd) (by rwa [hd])⟩
      cases hv : s.valid with
      | false =>
        exact ⟨_, effect_refuse (by decide),
          fun s' hc hd hv' => exec_txFrame_of_invalid (withinCapacity_of_eq h hc hd) (by rwa [hd]) hv'⟩
      | true =>
        rcases hl.lt_or_eq with hl | hl
        · exact ⟨_, .answers Response.okEmpty rfl nofun,
            fun s' hc hd hv' => exec_txFrame_of_short (withinCapacity_of_eq h hc hd) (by rwa [hd]) hv'⟩
        · exact ⟨_, .builds ptPcmu 160 (codesFrom s.din 0 frameSamples) hv (packetOf_txFrame rfl nofun),
            fun s' hc hd hv' => hd ▸ exec_txFrame_of_whole (withinCapacity_of_eq h hc hd) (by rwa [hd]) hv'⟩
    | _ => cases hi

/-- The inversion of `exec`: its next state is the effect applied. -/
theorem exec_next_cases {i : Instr} {s t : State} (h : exec i s = .next t) : ∃ f, Effect i s f ∧ t = f s := by
  obtain ⟨f, hf, hs⟩ := exec_effect i s
  rw [hs s rfl rfl rfl] at h
  exact ⟨f, hf, by cases h; rfl⟩

/-! ## What a step does to the stream (R22 to R25, R136) -/

/-- A step that issues a word refuses a reserved opcode or ends the decoded command. -/
theorem step_issue_cases {s t : State} {cw : CommandWord} {din : Buffer} (ha : currentAction s = some (.issue cw din))
    (h : step s = .next t) :
    (∃ e, decode cw = .error e ∧ t = retire (refuse .illegal (accept din s))) ∨
    ∃ i f, decode cw = .ok i ∧ Effect i (accept din s) f ∧ t = retire (f (accept din s)) := by
  cases hd : decode cw with
  | error e =>
    rw [step_of_decode_error ha hd] at h
    exact .inl ⟨e, rfl, by cases h; rfl⟩
  | ok i =>
    rw [step_of_decode_ok ha hd] at h
    obtain ⟨u, hu, rfl⟩ := onNext_eq_next h
    obtain ⟨f, hf, rfl⟩ := exec_next_cases hu
    exact .inr ⟨i, f, rfl, hf, rfl⟩

/-- R24, R25: a step leaves `VALID` and `SSRC`, or is a reset pulse, or is an accepted stream reset. -/
theorem step_valid_ssrc {s t : State} (h : step s = .next t) :
    (t.valid = s.valid ∧ t.ssrc = s.ssrc) ∨
    (t.valid = false ∧ currentAction s = some .pulseRst) ∨
    (t.valid = true ∧ ∃ cw din,
      currentAction s = some (.issue cw din) ∧ decode cw = .ok .rtpReset ∧ din.length ≤ s.config.dinMax) := by
  obtain ⟨-, rfl⟩ | ⟨ha, rfl⟩ | ⟨cw, din, -, ha, -, -⟩ := step_cases h
  · exact .inl ⟨rfl, rfl⟩
  · exact .inr (.inl ⟨rfl, ha⟩)
  · obtain ⟨e, -, rfl⟩ | ⟨i, f, hd, hf, rfl⟩ := step_issue_cases ha h
    · exact .inl ⟨rfl, rfl⟩
    · cases hf with
      | answers => exact .inl ⟨rfl, rfl⟩
      | builds => exact .inl ⟨rfl, rfl⟩
      | opens hi hcap => exact .inr (.inr ⟨rfl, cw, din, ha, hi ▸ hd, hcap⟩)

/-- A reader of the stream registers gets a value exactly when `VALID` is 1 (R25, R32). -/
theorem stream_isSome (s : State) : s.stream.isSome = s.valid := by
  cases hv : s.valid with
  | false => rw [stream_of_invalid hv, Option.isSome_none]
  | true => rw [stream_of_valid hv, Option.isSome_some]

theorem registers_eq_of_stream_eq {s s' : State} (h : s.stream = s'.stream) (hv : s.valid = true)
    (hv' : s'.valid = true) : s.seq = s'.seq ∧ s.ts = s'.ts ∧ s.ssrc = s'.ssrc := by
  simpa [stream_of_valid hv, stream_of_valid hv'] using h

/-! ## The obligations on one command and one step -/

/-- Settles O56, by the effect of the decoded command. -/
theorem stepAdvancesTheStreamByThePacketBuilt : Obligations.StepAdvancesTheStreamByThePacketBuilt := by
  intro s t cw din ha hne h
  obtain ⟨e, hd, rfl⟩ | ⟨i, f, hd, hf, rfl⟩ := step_issue_cases ha h
  · refine ⟨_, rfl, rfl, rfl, fun _ => ⟨rfl, rfl⟩, fun c d hp => ?_⟩
    rw [packetBuilt_of_decode_error hd] at hp
    cases hp
  · refine ⟨(f (accept din s)).response, ?_⟩
    rw [packetBuilt_of_decode_ok hd]
    cases hf with
    | answers r hnone => exact ⟨rfl, rfl, rfl, fun _ => ⟨rfl, rfl⟩, fun c d hp => by cases hnone.symm.trans hp⟩
    | opens hi => exact absurd (hi ▸ hd) hne
    | builds pt sc payload _ hsome =>
      refine ⟨rfl, rfl, rfl, fun hp => (by cases hsome.symm.trans hp), fun c d hp => ?_⟩
      cases hsome.symm.trans hp
      exact ⟨rfl, rfl, counters_of_packet pt s.seq s.ts s.ssrc payload⟩

/-- Settles O50, by the effect of the command. -/
theorem accessTableHolds : Obligations.AccessTableHolds := by
  intro i s t h
  obtain ⟨f, hf, rfl⟩ := exec_next_cases h
  cases hf with
  | answers r hnone hreset =>
    refine ⟨fun _ => ⟨rfl, rfl, rfl, rfl⟩, fun hi hok => absurd hok (hreset hi), ?_, ?_,
      fun _ _ => ⟨rfl, rfl, rfl, rfl⟩, rfl, rfl, rfl, rfl, rfl, fun _ => ⟨rfl, rfl⟩⟩
    · rintro pt sc rfl hok
      cases (packetOf_rtpBuild hok pt sc).symm.trans hnone
    · rintro rfl hok hdout
      cases (packetOf_txFrame hok hdout).symm.trans hnone
  | opens hi =>
    subst hi
    exact ⟨fun hw => absurd rfl (hw.resolve_left nofun), fun _ _ => ⟨rfl, rfl, rfl, rfl⟩, nofun, nofun, nofun,
      rfl, rfl, rfl, rfl, rfl, fun hne => absurd rfl hne⟩
  | builds pt sc payload _ hsome =>
    refine ⟨fun hw => ?_, ?_, ?_, ?_, fun _ hnil => (by cases hnil), rfl, rfl, rfl, rfl, rfl, fun _ => ⟨rfl, rfl⟩⟩
    · have hi := hw.resolve_right (absurd rfl)
      cases (packetOf_of_stateless hi _).symm.trans hsome
    · rintro rfl
      cases hsome
    · rintro pt' sc' rfl -
      cases hsome
      exact ⟨rfl, rfl, rfl, rfl⟩
    · rintro rfl - -
      cases hsome
      exact ⟨rfl, rfl, rfl, rfl⟩

/-- Settles O51, by the three things a step can do to `VALID` and `SSRC`. -/
theorem onlyResetsMoveValidAndSsrc : Obligations.OnlyResetsMoveValidAndSsrc := by
  intro s t h
  obtain ⟨hv, hssrc⟩ | ⟨hv, ha⟩ | ⟨hv, hreset⟩ := step_valid_ssrc h
  · simp +contextual [hv, hssrc]
  · simp [hv, ha]
  · exact ⟨by simp [hv], fun _ => hreset⟩

/-- Settles O52: the one response of `exec_of_stateless` is given in both states. -/
theorem statelessCommandsArePureFunctions : Obligations.StatelessCommandsArePureFunctions := by
  intro i s s' hi hd hc
  obtain ⟨r, hr⟩ := exec_of_stateless hi s
  exact ⟨_, _, hr s rfl rfl, hr s' hc.symm hd.symm, rfl, rfl, rfl⟩

/-- Settles O53: the two states have one effect, and it reads no more than the stream and the draw. -/
theorem commandSeesOnlyItsOwnInputs : Obligations.CommandSeesOnlyItsOwnInputs := by
  intro i s s' hd hc hst hrnd
  have hvalid : s'.valid = s.valid := by rw [← stream_isSome, ← hst, stream_isSome]
  obtain ⟨f, hf, hexec⟩ := exec_effect i s
  refine ⟨f s, f s', hexec s rfl rfl rfl, hexec s' hc.symm hd.symm hvalid, ?_⟩
  cases hf with
  | answers => exact ⟨rfl, hst⟩
  | opens => exact ⟨rfl, by simp [startStream, State.stream, hrnd]⟩
  | builds _ _ _ hv =>
    obtain ⟨hseq, hts, hssrc⟩ := registers_eq_of_stream_eq hst hv (hvalid.trans hv)
    simp [sendPacket, State.stream, hvalid, hseq, hts, hssrc]

/-- Settles O11: every part is the reset value of its field. -/
theorem resetLeavesNoStream : Obligations.ResetLeavesNoStream := ⟨rfl, rfl, rfl, rfl⟩

/-! ## The packets of a run (R28, R136, R142) -/

/-- From `s` to `t` exactly these packets were built: `VALID` and `SSRC` stand, the counters moved past the packets, and
packet `k` carries the counters the `k` packets before it left. -/
structure Carries (s t : State) (packets : List (BitVec 32 × Buffer)) : Prop where
  valid : t.valid = s.valid
  ssrc : t.ssrc = s.ssrc
  seq : t.seq = s.seq + BitVec.ofNat 16 packets.length
  ts : t.ts = s.ts + (packets.map Prod.fst).sum
  header : ∀ (k : Nat) (c : BitVec 32) (d : Buffer), packets[k]? = some (c, d) →
    (d.drop 2).take 10 = bytesBe16 (s.seq + BitVec.ofNat 16 k) ++
      bytesBe32 (s.ts + ((packets.take k).map Prod.fst).sum) ++ bytesBe32 s.ssrc

theorem Carries.refl (s : State) : Carries s s [] := by
  constructor <;> simp

/-- What was built from `s` to `u` comes before what was built from `u` to `t`. -/
theorem Carries.trans {s u t : State} {ps qs : List (BitVec 32 × Buffer)} (h : Carries s u ps) (h' : Carries u t qs) :
    Carries s t (ps ++ qs) where
  valid := h'.valid.trans h.valid
  ssrc := h'.ssrc.trans h.ssrc
  seq := by rw [h'.seq, h.seq, List.length_append, BitVec.ofNat_add, BitVec.add_assoc]
  ts := by rw [h'.ts, h.ts, List.map_append, List.sum_append, BitVec.add_assoc]
  header k c d hk := by
    rcases Nat.lt_or_ge k ps.length with hlt | hge
    · rw [List.getElem?_append_left hlt] at hk
      rw [List.take_append_of_le_length hlt.le, h.header k c d hk]
    · obtain ⟨j, rfl⟩ := Nat.exists_eq_add_of_le hge
      rw [List.getElem?_append_right hge, Nat.add_sub_cancel_left] at hk
      rw [h'.header j c d hk, h.seq, h.ts, h.ssrc, List.take_length_add_append, List.map_append, List.sum_append,
        BitVec.ofNat_add, BitVec.add_assoc, BitVec.add_assoc]

/-- R22, R23, R136: one command other than `RTP.RESET` gives one response, moves the index on, and carries the packet it
built, if any. -/
theorem step_carries {s : State} {cw : CommandWord} {din : Buffer} (ha : currentAction s = some (.issue cw din))
    (hne : decode cw ≠ .ok .rtpReset) :
    ∃ u r, step s = .next u ∧ u.program = s.program ∧ u.index = s.index + 1 ∧
      u.responses = s.responses ++ [r] ∧ Carries s u ([(HostAction.issue cw din, r)].filterMap packetBuilt) := by
  obtain ⟨v, hstep, hv⟩ := step_of_issue ha
  obtain ⟨r, hresp, hvalid, hssrc, hnone, hsome⟩ := stepAdvancesTheStreamByThePacketBuilt s _ cw din ha hne hstep
  refine ⟨retire v, r, hstep, hv.program, congrArg (· + 1) hv.index, hresp, ?_⟩
  match hp : packetBuilt (.issue cw din, r) with
  | none =>
    obtain ⟨hseq, hts⟩ := hnone hp
    rw [List.filterMap_cons_none hp]
    exact ⟨hvalid, hssrc, by simpa using hseq, by simpa using hts, nofun⟩
  | some (c, d) =>
    obtain ⟨hseq, hts, hheader⟩ := hsome c d hp
    rw [List.filterMap_cons_some hp]
    refine ⟨hvalid, hssrc, by simpa using hseq, by simpa using hts, fun k c' d' hk => ?_⟩
    cases k with
    | zero => cases hk; simpa using hheader
    | succ k => cases hk

theorem core_run_succ {s u : State} (h : step s = .next u) (k : Nat) : core.run (k + 1) s = core.run k u := by
  simp only [Host.Core.run, show core.step s = .next u from h]

theorem currentAction_of_drop {s : State} {a : HostAction} {as : List HostAction}
    (h : s.program.drop s.index = a :: as) : currentAction s = some a := by
  rw [currentAction, ← List.head?_drop, h, List.head?_cons]

/-- A run over commands other than `RTP.RESET` gives a response each and carries the packets they built. -/
theorem run_carries (actions : List HostAction) : ∀ s : State, s.program.drop s.index = actions →
    (∀ a ∈ actions, ∃ cw din, a = .issue cw din ∧ decode cw ≠ .ok .rtpReset) →
    ∃ (t : State) (given : List Response), core.run actions.length s = .next t ∧
      t.responses = s.responses ++ given ∧ given.length = actions.length ∧
      Carries s t ((actions.zip given).filterMap packetBuilt) := by
  induction actions with
  | nil => exact fun s _ _ => ⟨s, [], rfl, (List.append_nil _).symm, rfl, .refl s⟩
  | cons a as ih =>
    intro s hdrop hall
    obtain ⟨⟨cw, din, rfl, hne⟩, hrest⟩ := List.forall_mem_cons.1 hall
    obtain ⟨u, r, hstep, hprog, hindex, hresp, hcarries⟩ := step_carries (currentAction_of_drop hdrop) hne
    have hdrop' : u.program.drop u.index = as := by
      rw [hprog, hindex, ← List.tail_drop, hdrop, List.tail_cons]
    obtain ⟨t, given, hrun, hgiven, hlen, htail⟩ := ih u hdrop' hrest
    refine ⟨t, r :: given, (core_run_succ hstep _).trans hrun, by simp [hgiven, hresp], by simp [hlen], ?_⟩
    have hpackets := hcarries.trans htail
    rwa [← List.filterMap_append] at hpackets

/-- Settles O54, by induction on the commands of the run. -/
theorem packetsOfARunCarryConsecutiveCounters : Obligations.PacketsOfARunCarryConsecutiveCounters := by
  intro s actions hdrop hall
  obtain ⟨t, given, hrun, hgiven, hlen, hc⟩ := run_carries actions s hdrop hall
  exact ⟨t, given, hrun, hgiven, hlen, _, rfl, hc.valid, hc.ssrc, hc.seq, hc.ts, hc.header⟩

end Sys2Proof.Machine

/-! The memory interface of the block (spec/20_memory.md): every command completes with exactly one response. -/

namespace Sys2Proof.Machine

/-- R48, R212: with the program exhausted, at a reset pulse or at a command, a step answers a next state. -/
theorem step_answers_next (s : State) : ∃ t, step s = .next t := by
  match ha : currentAction s with
  | none => exact ⟨s, step_of_exhausted ha⟩
  | some .pulseRst => exact ⟨takeReset s, step_of_pulseRst ha⟩
  | some (.issue _ _) =>
    obtain ⟨u, hu, -⟩ := step_of_issue ha
    exact ⟨retire u, hu⟩

/-- Settles O12: a command leaves the record of the run to `retire`, which takes its one response. -/
theorem everyCommandCompletesWithOneResponse : Obligations.EveryCommandCompletesWithOneResponse := by
  refine ⟨fun i s => ?_, step_answers_next, fun s t cw din ha h => ?_⟩
  · obtain ⟨t, ht, -⟩ := exec_completes i s
    exact ⟨t, ht⟩
  · obtain ⟨u, hu, hc⟩ := step_of_issue ha
    obtain rfl : retire u = t := by rw [hu] at h; cases h; rfl
    exact ⟨congrArg (· + 1) hc.index, u.response, congrArg (· ++ [u.response]) hc.responses⟩

end Sys2Proof.Machine

/-! The encoding of commands (spec/30_encoding.md): which words a command has, what a reserved opcode is answered, and
the layout of the RTP header. -/

namespace Sys2Proof.Machine

/-! ## Fields of a word (R61, R62) -/

/-- The bits of a word of format C, field by field (R61). -/
theorem formatC_getLsbD (op pt : Byte) (imm : BitVec 32) (i : Nat) : (formatC op pt imm).getLsbD i =
    if i < 32 then imm.getLsbD i else if i < 40 then pt.getLsbD (i - 32) else op.getLsbD (i - 40) := by
  simp only [formatC, BitVec.getLsbD_or, BitVec.getLsbD_shiftLeft, BitVec.zeroExtend, BitVec.getLsbD_setWidth]
  by_cases h32 : i < 32
  · simp [h32, show i < 40 by omega, show i < 48 by omega]
  by_cases h40 : i < 40
  · simp [h32, h40, imm.getLsbD_of_ge i (by omega), show i < 48 by omega, show i - 32 < 48 by omega]
  by_cases h48 : i < 48
  · simp [h32, h40, h48, imm.getLsbD_of_ge i (by omega), pt.getLsbD_of_ge (i - 32) (by omega),
      show i - 40 < 48 by omega]
  · simp [h32, h40, h48, op.getLsbD_of_ge (i - 40) (by omega)]

/-- A word is its three fields (R61). -/
theorem formatC_fields (w : CommandWord) : formatC (opField w) (ptField w) (immField w) = w := by
  apply BitVec.eq_of_getLsbD_eq
  intro i hi
  rw [formatC_getLsbD]
  split
  · simp [immField, *]
  split
  · next h32 h40 => simp [ptField, show i - 32 < 8 by omega, show 32 + (i - 32) = i by omega]
  · next h32 h40 => simp [opField, show i - 40 < 8 by omega, show 40 + (i - 40) = i by omega]

theorem formatC_and_formatC (op op' pt pt' : Byte) (imm imm' : BitVec 32) :
    formatC op pt imm &&& formatC op' pt' imm' = formatC (op &&& op') (pt &&& pt') (imm &&& imm') := by
  apply BitVec.eq_of_getLsbD_eq
  intro i _
  simp only [BitVec.getLsbD_and, formatC_getLsbD]
  split
  · rfl
  · split <;> rfl

/-- Masking a word masks its fields. -/
theorem and_formatC (w : CommandWord) (op pt : Byte) (imm : BitVec 32) :
    w &&& formatC op pt imm = formatC (opField w &&& op) (ptField w &&& pt) (immField w &&& imm) := by
  rw [← formatC_and_formatC, formatC_fields]

theorem extractLsb'_immField (w : CommandWord) {n : Nat} (hn : n ≤ 32) :
    (immField w).extractLsb' 0 n = w.extractLsb' 0 n := by
  apply BitVec.eq_of_getLsbD_eq
  intro i hi
  simp [immField, hi, show i < 32 by omega]

theorem extractLsb'_zeroExtend {n m : Nat} (h : n ≤ m) (v : BitVec n) : (v.zeroExtend m).extractLsb' 0 n = v := by
  apply BitVec.eq_of_getLsbD_eq
  intro i hi
  simp [hi, show i < m by omega]

/-- Cutting out the low bits and widening again is a mask. -/
theorem zeroExtend_extractLsb' (v : BitVec 32) (n : Nat) :
    (v.extractLsb' 0 n).zeroExtend 32 = v &&& BitVec.ofNat 32 (2 ^ n - 1) := by
  apply BitVec.eq_of_getLsbD_eq
  intro i hi
  rw [BitVec.getLsbD_and, BitVec.getLsbD_ofNat, Nat.testBit_two_pow_sub_one]
  simp [hi, Bool.and_comm]

/-! ## Decoding (R62 to R64) -/

/-- The opcodes R63 lists. -/
def listedOpcodes : List Byte := [0x01, 0x02, 0x03, 0x04, 0x10, 0x11, 0x12, 0x13, 0x20, 0x21]

/-- Settles O3, by the row the opcode selects. -/
theorem listedOpcodesDecodeToTheirSlices : Obligations.ListedOpcodesDecodeToTheirSlices := by
  intro w
  refine ⟨fun h => ?enc, fun h => ?dec, fun h => ?_, fun h => ?_, fun h => ?_, fun h => ?_, fun h => ?_, fun h => ?_,
    fun h => ?_, fun h => ?_⟩ <;> rw [decode_by_opcode, h]
  case enc => rw [if_pos rfl, extractLsb'_immField w (by decide)]
  case dec => rw [if_neg (by decide), if_pos rfl, extractLsb'_immField w (by decide)]
  all_goals rfl

/-- A word whose opcode is not listed is refused by that opcode (R64). -/
theorem decode_of_not_listed {w : CommandWord} (h : opField w ∉ listedOpcodes) :
    decode w = .error (.reservedOpcode (opField w)) := by
  simp only [listedOpcodes, List.mem_cons, List.not_mem_nil, or_false, not_or] at h
  obtain ⟨h1, h2, h3, h4, h5, h6, h7, h8, h9, h10⟩ := h
  rw [decode_by_opcode, if_neg h1, if_neg h2, if_neg h3, if_neg h4, if_neg h5, if_neg h6, if_neg h7, if_neg h8,
    if_neg h9, if_neg h10]

theorem listed_of_decode_ok {w : CommandWord} {i : Instr} (h : decode w = .ok i) : opField w ∈ listedOpcodes := by
  by_contra hn
  cases h.symm.trans (decode_of_not_listed hn)

/-! ## The used bits (R65) -/

/-- The used bits of a word, field by field: the whole opcode, and what the masks of its row leave of the operands. -/
theorem and_usedBits {w : CommandWord} {op pt : Byte} {imm : BitVec 32} (h : opField w = op)
    (hu : usedBits op = formatC 0xFF pt imm) :
    w &&& usedBits (opField w) = formatC op (ptField w &&& pt) (immField w &&& imm) := by
  rw [h, hu, and_formatC, h, show (0xFF : Byte) = BitVec.allOnes 8 from rfl, BitVec.and_allOnes]

/-- The case of a command without operands. -/
theorem and_usedBits_of_bare {w : CommandWord} {op : Byte} (h : opField w = op) (hu : usedBits op = formatC 0xFF 0 0) :
    formatC op 0 0 = w &&& usedBits (opField w) := by
  rw [and_usedBits h hu, show (0 : Byte) = 0#8 from rfl, show (0 : BitVec 32) = 0#32 from rfl, BitVec.and_zero,
    BitVec.and_zero]

/-- The case of a command whose one operand is the low `n` bits of the word. -/
theorem and_usedBits_of_low {w : CommandWord} {op : Byte} {n : Nat} (h : opField w = op) (hn : n ≤ 32)
    (hu : usedBits op = formatC 0xFF 0 (BitVec.ofNat 32 (2 ^ n - 1))) :
    formatC op 0 ((w.extractLsb' 0 n).zeroExtend 32) = w &&& usedBits (opField w) := by
  rw [and_usedBits h hu, show (0 : Byte) = 0#8 from rfl, BitVec.and_zero, ← extractLsb'_immField w hn,
    zeroExtend_extractLsb']

/-- The case of `RTP.BUILD`, which uses the whole word. -/
theorem and_usedBits_of_rtpBuild {w : CommandWord} (h : opField w = 0x11) :
    formatC 0x11 (w.extractLsb' 32 8) (w.extractLsb' 0 32) = w &&& usedBits (opField w) := by
  rw [h, show usedBits 0x11 = BitVec.allOnes 48 from rfl, BitVec.and_allOnes, ← h]
  exact formatC_fields w

/-- A word with a listed opcode is the word of its command, up to the bits the command ignores. -/
theorem decode_of_listed {w : CommandWord} (h : opField w ∈ listedOpcodes) :
    ∃ i, decode w = .ok i ∧ encode i = w &&& usedBits (opField w) := by
  obtain ⟨enc, dec, encb, decb, reset, build, parse, hdr, tx, rx⟩ := listedOpcodesDecodeToTheirSlices w
  simp only [listedOpcodes, List.mem_cons, List.not_mem_nil, or_false] at h
  obtain h | h | h | h | h | h | h | h | h | h := h
  · exact ⟨_, enc h, and_usedBits_of_low h (by decide) (by decide)⟩
  · exact ⟨_, dec h, and_usedBits_of_low h (by decide) (by decide)⟩
  · exact ⟨_, encb h, and_usedBits_of_bare h (by decide)⟩
  · exact ⟨_, decb h, and_usedBits_of_bare h (by decide)⟩
  · exact ⟨_, reset h, and_usedBits_of_bare h (by decide)⟩
  · exact ⟨_, build h, and_usedBits_of_rtpBuild h⟩
  · exact ⟨_, parse h, and_usedBits_of_bare h (by decide)⟩
  · exact ⟨_, hdr h, and_usedBits_of_bare h (by decide)⟩
  · exact ⟨_, tx h, and_usedBits_of_bare h (by decide)⟩
  · exact ⟨_, rx h, and_usedBits_of_bare h (by decide)⟩

/-! ## Encoding (R61 to R65) -/

/-- What the assembler writes, the decoder reads back (R62, R65). -/
theorem decode_encode (i : Instr) : decode (encode i) = .ok i := by
  rw [decode_by_opcode]
  cases i with
  | ulawEnc x => simp [encode, extractLsb'_zeroExtend]
  | ulawDec u => simp [encode, extractLsb'_zeroExtend]
  | _ => simp [encode]

/-- Settles O2: the table number of an assembled word is the word, and `decode_encode` reads it back. -/
theorem decodeAfterEncodeIsIdentity : Obligations.DecodeAfterEncodeIsIdentity := by
  intro i
  refine ⟨decode_encode i, ?_⟩
  rw [decodeTableWord, if_pos ⟨Nat.le_refl 48, (encode i).isLt⟩, BitVec.ofNat_toNat, BitVec.setWidth_eq, decode_encode]
  rfl

theorem encode_injective : Function.Injective encode := fun i j h => by
  cases (decode_encode i).symm.trans ((congrArg decode h).trans (decode_encode j))
  rfl

/-- The opcode is among the used bits of every command. -/
theorem opField_and_usedBits (w : CommandWord) (op : Byte) : opField (w &&& usedBits op) = opField w := by
  have hu : opField (usedBits op) = BitVec.allOnes 8 := by
    unfold usedBits
    split_ifs <;> decide
  rw [opField, BitVec.extractLsb'_and, ← opField, ← opField, hu, BitVec.and_allOnes]

/-- The words of a command are those whose used bits are the assembler's word (R65). -/
theorem decode_eq_ok_iff {w : CommandWord} {i : Instr} : decode w = .ok i ↔ w &&& usedBits (opField w) = encode i := by
  constructor
  · intro h
    obtain ⟨j, hj, hu⟩ := decode_of_listed (listed_of_decode_ok h)
    cases hj.symm.trans h
    exact hu.symm
  · intro h
    have hop : opField w = opField (encode i) := by rw [← h, opField_and_usedBits]
    obtain ⟨j, hj, hu⟩ := decode_of_listed (hop ▸ listed_of_decode_ok (decode_encode i))
    exact encode_injective (hu.trans h) ▸ hj

/-- The assembler writes zero in the bits its command ignores (R65). -/
theorem encode_and_not_usedBits (i : Instr) : encode i &&& ~~~ usedBits (opField (encode i)) = 0 := by
  have hu := decode_eq_ok_iff.1 (decode_encode i)
  generalize usedBits (opField (encode i)) = u at hu ⊢
  rw [← hu, BitVec.and_assoc, BitVec.and_not_self]
  exact BitVec.and_zero

/-- Two words have one opcode if they agree on the bits that the command of either uses. -/
theorem opField_eq_of_and_usedBits_eq {w w' : CommandWord} {op op' : Byte}
    (h : w &&& usedBits op = w' &&& usedBits op') : opField w = opField w' := by
  rw [← opField_and_usedBits w op, h, opField_and_usedBits]

/-- Settles O5: both words have the used bits of the assembler's word. -/
theorem wordsDifferingInIgnoredFieldsAreOneCommand : Obligations.WordsDifferingInIgnoredFieldsAreOneCommand := by
  refine ⟨fun w w' i h => ?_, encode_and_not_usedBits⟩
  rw [decode_eq_ok_iff, ← decode_eq_ok_iff.1 h]
  constructor
  · intro heq
    rw [← heq, opField_eq_of_and_usedBits_eq heq]
  · intro heq
    rw [heq, opField_eq_of_and_usedBits_eq heq]

/-- A word of format C decodes to nothing exactly when its opcode is reserved (R64). -/
theorem decode_formatC_isNone (op pt : Byte) (imm : BitVec 32) :
    (decode (formatC op pt imm)).toOption.isNone = decide (op ∉ listedOpcodes) := by
  by_cases h : op ∈ listedOpcodes
  · obtain ⟨i, hi, -⟩ := decode_of_listed (w := formatC op pt imm) (by rwa [opField_formatC])
    simp [hi, h, Except.toOption]
  · rw [decode_of_not_listed (by rwa [opField_formatC])]
    simp [h, Except.toOption]

set_option maxRecDepth 2000 in
theorem not_listed_count :
    ((List.range 256).filter fun n => decide (BitVec.ofNat 8 n ∉ listedOpcodes)).length = 246 := by
  decide

/-- Settles O6: a word is refused exactly when its opcode is not listed, and 10 of the 256 opcodes are. -/
theorem unlistedOpcodesAreReserved : Obligations.UnlistedOpcodesAreReserved := by
  refine ⟨fun w => ⟨fun h hl => ?_, decode_of_not_listed⟩, ?_⟩
  · obtain ⟨i, hi, -⟩ := decode_of_listed hl
    cases hi.symm.trans h
  · simp only [decode_formatC_isNone, not_listed_count]

/-- The written command and the word assembled from it are one instruction (R66). -/
theorem decode_of_assemble {c : Written} {w : CommandWord} (h : assemble c = some w) :
    (decode w).toOption = c.toInstr := by
  obtain ⟨i, hi, rfl⟩ := Option.map_eq_some_iff.1 h
  rw [decode_encode, hi]
  rfl

/-- Settles O1: the assembler writes each word of R67, and decoding takes it back. -/
theorem workedEncodingsAgree : Obligations.WorkedEncodingsAgree := by
  intro p hp
  have h : assemble p.1 = some p.2 := by
    revert p
    decide
  exact ⟨h, decode_of_assemble h⟩

/-- Settles O4: a word that selects two rows has the pattern of both, and no two rows share one. -/
theorem opcodeRowsAreDisjoint : Obligations.OpcodeRowsAreDisjoint := by
  have hne : opcodeMap.Pairwise (fun r r' => r.pattern ≠ r'.pattern) := by decide
  refine hne.imp fun hne w ⟨h, h'⟩ => hne ?_
  exact (eq_of_beq h).symm.trans (eq_of_beq h')

/-! ## Reserved opcodes and the statuses (R64, R180, R182) -/

/-- Settles O7: the refusal of `step_of_decode_error`, with `accept`, `refuse` and `retire` written out. -/
theorem reservedOpcodeStepAnswersIllegal : Obligations.ReservedOpcodeStepAnswersIllegal := by
  intro s cw din ha hop
  exact step_of_decode_error ha (decode_of_not_listed hop)

/-- Settles O49, by the pairs of statuses. -/
theorem statusCodesAreTheTable : Obligations.StatusCodesAreTheTable := by
  refine ⟨rfl, rfl, rfl, rfl, fun a b => ?_⟩
  cases a <;> cases b <;> decide

/-! ## The header (R70, R72, R75) -/

/-- The low seven bits of a payload type are the whole of one below 128. -/
theorem and_7F_of_lt {pt : Byte} (h : pt.toNat < 128) : pt &&& 0x7F = pt := by
  apply BitVec.eq_of_toNat_eq
  rw [BitVec.toNat_and]
  exact Nat.and_two_pow_sub_one_of_lt_two_pow (n := 7) h

theorem extractLsb'_and_7F (pt : Byte) : (pt &&& 0x7F).extractLsb' 0 7 = pt.extractLsb' 0 7 := by
  rw [BitVec.extractLsb'_and, show (0x7F : Byte).extractLsb' 0 7 = BitVec.allOnes 7 by decide, BitVec.and_allOnes]

/-- Settles O28: the first byte is constant, and the mask of the second clears the marker bit alone. -/
theorem headerLayoutIsTheWireFormat : Obligations.HeaderLayoutIsTheWireFormat := by
  intro pt seq ts ssrc
  refine ⟨0x80, pt &&& 0x7F, rfl, by decide, by decide, ?_, extractLsb'_and_7F pt, and_7F_of_lt, rfl⟩
  rw [BitVec.getLsbD_and, show (0x7F : Byte).getLsbD 7 = false by decide, Bool.and_false]

/-- The codes decoded after `base` bytes do not depend on these bytes. -/
theorem pcmFrom_drop (din : Buffer) (base k : Nat) : pcmFrom din base 0 k = pcmFrom (din.drop base) 0 0 k := by
  simp [pcmFrom, List.getD_eq_getElem?_getD]

/-- Settles O37: both commands read the packet from byte 12 on, and its length. -/
theorem headerBitsDoNotReachTheReceivePath : Obligations.HeaderBitsDoNotReachTheReceivePath := by
  intro s p q hlen hdrop i hi
  rcases Nat.lt_or_ge s.config.dinMax p.length with h | h
  · exact ⟨_, _, exec_over_capacity h i, exec_over_capacity (hlen ▸ h) i, rfl⟩
  have hq : WithinCapacity { s with din := q } := hlen.ge.trans h
  simp only [List.mem_cons, List.not_mem_nil, or_false] at hi
  obtain rfl | rfl := hi
  · exact ⟨_, _, exec_rtpParse h, exec_rtpParse hq, congrArg Response.okDout hdrop⟩
  · refine ⟨_, _, exec_rxPkt h, exec_rxPkt hq, congrArg Response.okDout ?_⟩
    simp only [pcmFrom_drop _ headerSize, hlen, hdrop]

end Sys2Proof.Machine

/-! The μ-law codec (spec/40_ulaw_codec.md): the cell a sample falls in, the code of a cell and the sample a code stands
for, and the four commands over these two functions. -/

namespace Sys2Proof.Machine

/-! ## The cell of a sample (R101, R102, R105)

Sixteen cells of `2 ^ (e + 3)` biased magnitudes make up segment `e`; cell `m` begins at `(16 + m) * 2 ^ (e + 3)`. -/

theorem biasedMagnitude_of_le {x : Int} (h : x.natAbs ≤ 32635) : biasedMagnitude x = x.natAbs + 132 :=
  congrArg (· + bias) (Nat.min_eq_left h)

theorem biasedMagnitude_of_ge {x : Int} (h : 32635 ≤ x.natAbs) : biasedMagnitude x = 32767 :=
  congrArg (· + bias) (Nat.min_eq_right h)

/-- R102: the segment is the one that holds the biased magnitude. -/
theorem exponent_eq_iff {x : Int} {e : Nat} :
    exponent x = e ↔ 2 ^ (e + 7) ≤ biasedMagnitude x ∧ biasedMagnitude x < 2 ^ (e + 8) := by
  obtain ⟨hmsb, -⟩ := msb_biased_range x
  obtain ⟨hb, -⟩ := biasedMagnitude_range x
  rw [exponent, Nat.sub_eq_iff_eq_add hmsb]
  exact Nat.log2_eq_iff (by omega)

/-- R105: the segment of a sample holds its biased magnitude. -/
theorem segment_of_sample (x : Int) :
    2 ^ (exponent x + 7) ≤ biasedMagnitude x ∧ biasedMagnitude x < 2 ^ (exponent x + 8) :=
  exponent_eq_iff.1 rfl

/-- R101: the mantissa is the four bits below the leading one. -/
theorem mantissa_eq_mod (x : Int) : mantissa x = biasedMagnitude x / 2 ^ (exponent x + 3) % 16 := by
  rw [mantissa, Nat.shiftRight_eq_div_pow]
  exact Nat.and_two_pow_sub_one_eq_mod _ 4

/-- Counted in steps of its segment, a biased magnitude is the leading one and the mantissa. -/
theorem biasedMagnitude_div_step (x : Int) : biasedMagnitude x / 2 ^ (exponent x + 3) = 16 + mantissa x := by
  obtain ⟨lo, hi⟩ := segment_of_sample x
  have hlo : 16 ≤ biasedMagnitude x / 2 ^ (exponent x + 3) := by
    rw [Nat.le_div_iff_mul_le (by positivity)]
    convert lo using 1; ring
  have hhi : biasedMagnitude x / 2 ^ (exponent x + 3) < 32 := by
    rw [Nat.div_lt_iff_lt_mul (by positivity)]
    convert hi using 1; ring
  rw [mantissa_eq_mod]
  omega

/-- R105: the cell of a sample holds its biased magnitude. -/
theorem cell_of_sample (x : Int) :
    (16 + mantissa x) * 2 ^ (exponent x + 3) ≤ biasedMagnitude x ∧
      biasedMagnitude x < (16 + mantissa x) * 2 ^ (exponent x + 3) + 2 ^ (exponent x + 3) := by
  rw [← biasedMagnitude_div_step]
  exact ⟨Nat.div_mul_le_self .., Nat.lt_div_mul_add (by positivity)⟩

/-- R105: the cell that holds the biased magnitude gives the sample its segment and its mantissa. -/
theorem fields_of_cell {x : Int} {e m : Nat} (hm : m ≤ 15) (lo : (16 + m) * 2 ^ (e + 3) ≤ biasedMagnitude x)
    (hi : biasedMagnitude x < (16 + m) * 2 ^ (e + 3) + 2 ^ (e + 3)) : exponent x = e ∧ mantissa x = m := by
  have he : exponent x = e := by
    refine exponent_eq_iff.2 ⟨le_trans ?_ lo, hi.trans_le ?_⟩
    · calc 2 ^ (e + 7) = 16 * 2 ^ (e + 3) := by ring
        _ ≤ (16 + m) * 2 ^ (e + 3) := Nat.mul_le_mul_right _ (by omega)
    · calc (16 + m) * 2 ^ (e + 3) + 2 ^ (e + 3) = (17 + m) * 2 ^ (e + 3) := by ring
        _ ≤ 32 * 2 ^ (e + 3) := Nat.mul_le_mul_right _ (by omega)
        _ = 2 ^ (e + 8) := by ring
  have hdiv : biasedMagnitude x / 2 ^ (e + 3) = 16 + m :=
    Nat.div_eq_of_lt_le lo (by rwa [Nat.succ_mul])
  have hdiv' := biasedMagnitude_div_step x
  rw [he, hdiv] at hdiv'
  exact ⟨he, by omega⟩

/-! ## The code of a cell (R77, R101) -/

/-- The code with this sign, exponent and mantissa: the complement of the three fields side by side. -/
def codeOf (s e m : Nat) : Byte := ~~~ BitVec.ofNat 8 (128 * s + 16 * e + m)

/-- R101: the encoder's code is that of the sample's sign and cell. -/
theorem ulawEnc_eq_codeOf (x : Int) : ulawEnc x = codeOf (signBit x) (exponent x) (mantissa x) := by
  have he := exponent_le x
  have hm := mantissa_le x
  have hlow : exponent x <<< 4 + mantissa x < 2 ^ 7 := by rw [Nat.shiftLeft_eq]; omega
  rw [ulawEnc, uncomplemented, codeOf, Nat.or_assoc, ← Nat.shiftLeft_add_eq_or_of_lt (i := 4) (by omega),
    ← Nat.shiftLeft_add_eq_or_of_lt hlow, Nat.shiftLeft_eq, Nat.shiftLeft_eq]
  congr 2
  omega

theorem ulawEnc_of_cell {x : Int} {e m : Nat} (hm : m ≤ 15) (lo : (16 + m) * 2 ^ (e + 3) ≤ biasedMagnitude x)
    (hi : biasedMagnitude x < (16 + m) * 2 ^ (e + 3) + 2 ^ (e + 3)) : ulawEnc x = codeOf (signBit x) e m := by
  obtain ⟨he, hm⟩ := fields_of_cell hm lo hi
  rw [ulawEnc_eq_codeOf, he, hm]

/-- Every code has a sign, an exponent and a mantissa. -/
theorem exists_codeOf (u : Byte) : ∃ s e m, s ≤ 1 ∧ e ≤ 7 ∧ m ≤ 15 ∧ u = codeOf s e m := by
  have hu := (~~~ u).isLt
  refine ⟨(~~~ u).toNat / 128, (~~~ u).toNat / 16 % 8, (~~~ u).toNat % 16, by omega, by omega, by omega, ?_⟩
  rw [codeOf, show 128 * ((~~~ u).toNat / 128) + 16 * ((~~~ u).toNat / 16 % 8) + (~~~ u).toNat % 16 = (~~~ u).toNat by
    omega, BitVec.ofNat_toNat, BitVec.setWidth_eq, BitVec.not_not]

/-- The other sign is the other top bit. -/
theorem codeOf_one (e m : Nat) : codeOf 1 e m = codeOf 0 e m ^^^ 0x80 := by
  have flip : ∀ v : Byte, v + 0x80 = v ^^^ 0x80 := by decide
  rw [codeOf, codeOf, ← BitVec.not_xor_left, ← flip, show 128 * 1 + 16 * e + m = 128 * 0 + 16 * e + m + 128 by omega,
    BitVec.ofNat_add]
  rfl

theorem toNat_not_codeOf {s e m : Nat} (hs : s ≤ 1) (he : e ≤ 7) (hm : m ≤ 15) :
    (~~~ codeOf s e m).toNat = 128 * s + 16 * e + m := by
  rw [codeOf, BitVec.not_not, BitVec.toNat_ofNat]
  omega

theorem toNat_not_ulawEnc (x : Int) :
    (~~~ ulawEnc x).toNat = 128 * signBit x + 16 * exponent x + mantissa x := by
  rw [ulawEnc_eq_codeOf, toNat_not_codeOf (signBit_le x) (exponent_le x) (mantissa_le x)]

theorem exponentField_ulawEnc (x : Int) : ((~~~ ulawEnc x).extractLsb' 4 3).toNat = exponent x := by
  have he := exponent_le x
  have hm := mantissa_le x
  rw [BitVec.extractLsb'_toNat, toNat_not_ulawEnc, Nat.shiftRight_eq_div_pow]
  omega

theorem mantissaField_ulawEnc (x : Int) : ((~~~ ulawEnc x).extractLsb' 0 4).toNat = mantissa x := by
  have hm := mantissa_le x
  rw [BitVec.extractLsb'_toNat, toNat_not_ulawEnc, Nat.shiftRight_eq_div_pow]
  omega

theorem magnitudeField_ulawEnc (x : Int) :
    ((~~~ ulawEnc x).extractLsb' 0 7).toNat = 16 * exponent x + mantissa x := by
  have he := exponent_le x
  have hm := mantissa_le x
  rw [BitVec.extractLsb'_toNat, toNat_not_ulawEnc, Nat.shiftRight_eq_div_pow]
  omega

theorem signBit_of_neg {x : Int} (h : x < 0) : signBit x = 1 := if_pos h

theorem signBit_of_nonneg {x : Int} (h : 0 ≤ x) : signBit x = 0 := if_neg (by omega)

/-! ## The sample of a code (R107) -/

theorem decodedMagnitude_eq (e m : Nat) : decodedMagnitude e m = (m <<< 3 + 132) <<< e - 132 := rfl

/-- R107: the shift comes first, so what the bias is taken off is at least the bias. -/
theorem decodedMagnitude_add_bias (e m : Nat) : decodedMagnitude e m + 132 = (m * 8 + 132) * 2 ^ e := by
  have hle : m * 8 + 132 ≤ (m * 8 + 132) * 2 ^ e := Nat.le_mul_of_pos_right _ (by positivity)
  rw [decodedMagnitude_eq, Nat.shiftLeft_eq, Nat.shiftLeft_eq]
  exact Nat.sub_add_cancel ((Nat.le_add_left 132 _).trans hle)

/-- R110: the decoded magnitude is the middle of its cell, the bias taken off. -/
theorem decodedMagnitude_eq_middle (e m : Nat) :
    decodedMagnitude e m + 132 = (16 + m) * 2 ^ (e + 3) + 2 ^ (e + 2) := by
  rw [decodedMagnitude_add_bias]; ring

theorem decodedMagnitude_le {e m : Nat} (he : e ≤ 7) (hm : m ≤ 15) : decodedMagnitude e m ≤ 32124 := by
  have h : (m * 8 + 132) * 2 ^ e ≤ (15 * 8 + 132) * 2 ^ 7 := by gcongr; decide
  have := decodedMagnitude_add_bias e m
  omega

/-- Only the lowest cell decodes to 0. -/
theorem decodedMagnitude_eq_zero_iff {e m : Nat} : decodedMagnitude e m = 0 ↔ e = 0 ∧ m = 0 := by
  refine ⟨fun h => ?_, by rintro ⟨rfl, rfl⟩; rfl⟩
  have hsum := decodedMagnitude_add_bias e m
  rw [h] at hsum
  cases e with
  | zero => omega
  | succ e =>
    have : (m * 8 + 132) * 2 ≤ (m * 8 + 132) * 2 ^ (e + 1) := by gcongr; exact Nat.le_self_pow (by omega) 2
    omega

/-- R107, by the fields of the complement. -/
theorem ulawDec_eq (u : Byte) : ulawDec u =
    if (~~~ u).toNat / 128 = 1 then -(decodedMagnitude ((~~~ u).toNat / 16 % 8) ((~~~ u).toNat % 16) : Int)
    else decodedMagnitude ((~~~ u).toNat / 16 % 8) ((~~~ u).toNat % 16) := by
  have hu := (~~~ u).isLt
  have hsign : (~~~ u).getLsbD 7 = decide ((~~~ u).toNat / 128 = 1) := by
    rw [← BitVec.testBit_toNat, Nat.testBit_eq_decide_div_mod_eq, Nat.mod_eq_of_lt (by omega)]
  simp only [ulawDec, hsign, decide_eq_true_eq, BitVec.extractLsb'_toNat, Nat.shiftRight_eq_div_pow, pow_zero,
    Nat.div_one]

section Fields
variable {s e m : Nat} (hs : s ≤ 1) (he : e ≤ 7) (hm : m ≤ 15)
include hs he hm

theorem ulawDec_codeOf : ulawDec (codeOf s e m) =
    if s = 1 then -(decodedMagnitude e m : Int) else decodedMagnitude e m := by
  rw [ulawDec_eq, toNat_not_codeOf hs he hm, show (128 * s + 16 * e + m) / 128 = s by omega,
    show (128 * s + 16 * e + m) / 16 % 8 = e by omega, show (128 * s + 16 * e + m) % 16 = m by omega]

theorem natAbs_ulawDec_codeOf : (ulawDec (codeOf s e m)).natAbs = decodedMagnitude e m := by
  rw [ulawDec_codeOf hs he hm]
  split <;> omega

/-- The middle of a cell is in the cell, so encoding a decoded sample gives its exponent and mantissa back. -/
theorem ulawEnc_ulawDec_codeOf :
    ulawEnc (ulawDec (codeOf s e m)) = codeOf (signBit (ulawDec (codeOf s e m))) e m := by
  have hmid := decodedMagnitude_eq_middle e m
  have habs := natAbs_ulawDec_codeOf hs he hm
  have hle := decodedMagnitude_le he hm
  have hpos : 0 < 2 ^ (e + 2) := by positivity
  have hstep : 2 ^ (e + 3) = 2 * 2 ^ (e + 2) := by ring
  have hb := biasedMagnitude_of_le (x := ulawDec (codeOf s e m)) (by omega)
  exact ulawEnc_of_cell hm (by omega) (by omega)

end Fields

/-- R108: no code decodes to a greater magnitude than 0x80 and 0x00 do. -/
theorem natAbs_ulawDec_le (u : Byte) : (ulawDec u).natAbs ≤ 32124 := by
  obtain ⟨s, e, m, hs, he, hm, rfl⟩ := exists_codeOf u
  rw [natAbs_ulawDec_codeOf hs he hm]
  exact decodedMagnitude_le he hm

/-- Every decoded sample fits its 16 bits (R107). -/
theorem toInt_twos16_ulawDec (u : Byte) : (twos16 (ulawDec u)).toInt = ulawDec u := by
  have := natAbs_ulawDec_le u
  exact BitVec.toInt_ofInt_eq_self (by decide) (by norm_num; omega) (by norm_num; omega)

/-- R106 (c): every code but negative zero is a fixed point of decode then encode. -/
theorem ulawEnc_ulawDec {u : Byte} (hu : u ≠ 0x7F) : ulawEnc (ulawDec u) = u := by
  obtain ⟨s, e, m, hs, he, hm, rfl⟩ := exists_codeOf u
  rw [ulawEnc_ulawDec_codeOf hs he hm, ulawDec_codeOf hs he hm]
  obtain rfl | rfl : s = 0 ∨ s = 1 := by omega
  · rw [if_neg (by decide), signBit_of_nonneg (by omega)]
  · have hne : decodedMagnitude e m ≠ 0 := fun h => hu <| by
      obtain ⟨rfl, rfl⟩ := decodedMagnitude_eq_zero_iff.1 h
      rfl
    rw [if_pos rfl, signBit_of_neg (by omega)]

/-- Negative zero comes back as zero. -/
theorem ulawEnc_ulawDec_eq_ite (u : Byte) : ulawEnc (ulawDec u) = if u = 0x7F then 0xFF else u := by
  split
  · next h => rw [h]; decide
  · next h => exact ulawEnc_ulawDec h

/-! ## The round trip of a sample (R110) -/

theorem ulawDec_ulawEnc (x : Int) : ulawDec (ulawEnc x) =
    if x < 0 then -(decodedMagnitude (exponent x) (mantissa x) : Int)
    else decodedMagnitude (exponent x) (mantissa x) := by
  rw [ulawEnc_eq_codeOf, ulawDec_codeOf (signBit_le x) (exponent_le x) (mantissa_le x)]
  by_cases h : x < 0
  · rw [signBit_of_neg h, if_pos rfl, if_pos h]
  · rw [signBit_of_nonneg (by omega), if_neg (by decide), if_neg h]

theorem natAbs_ulawDec_ulawEnc (x : Int) :
    (ulawDec (ulawEnc x)).natAbs = decodedMagnitude (exponent x) (mantissa x) := by
  rw [ulawEnc_eq_codeOf, natAbs_ulawDec_codeOf (signBit_le x) (exponent_le x) (mantissa_le x)]

/-- The sign is kept, so the error is that of the magnitudes. -/
theorem natAbs_roundTrip_error (x : Int) :
    (ulawDec (ulawEnc x) - x).natAbs = ((decodedMagnitude (exponent x) (mantissa x) : Int) - x.natAbs).natAbs := by
  rw [ulawDec_ulawEnc]
  split <;> omega

/-- Up to the clamp a sample is half a step or less from the middle of its cell. -/
theorem roundTrip_error_le_half_step {x : Int} (h : x.natAbs ≤ 32635) :
    (ulawDec (ulawEnc x) - x).natAbs ≤ 2 ^ (exponent x + 2) := by
  obtain ⟨lo, hi⟩ := cell_of_sample x
  have hmid := decodedMagnitude_eq_middle (exponent x) (mantissa x)
  have hstep : 2 ^ (exponent x + 3) = 2 * 2 ^ (exponent x + 2) := by ring
  rw [biasedMagnitude_of_le h] at lo hi
  rw [natAbs_roundTrip_error]
  omega

/-- Beyond the clamp every sample is in the last cell. -/
theorem fields_of_clamped {x : Int} (h : 32635 ≤ x.natAbs) : exponent x = 7 ∧ mantissa x = 15 := by
  have hb := biasedMagnitude_of_ge h
  exact fields_of_cell (by decide) (by omega) (by omega)

/-- R110: 644 is the error of the most negative sample. -/
theorem roundTrip_error_le {x : Int} (hx : x.natAbs ≤ 32768) : (ulawDec (ulawEnc x) - x).natAbs ≤ 644 := by
  rcases Nat.lt_or_ge 32635 x.natAbs with h | h
  · obtain ⟨he, hm⟩ := fields_of_clamped h.le
    have hmag : decodedMagnitude 7 15 = 32124 := rfl
    rw [natAbs_roundTrip_error, he, hm, hmag]
    omega
  · calc (ulawDec (ulawEnc x) - x).natAbs ≤ 2 ^ (exponent x + 2) := roundTrip_error_le_half_step h
      _ ≤ 2 ^ 9 := Nat.pow_le_pow_right (by decide) (Nat.add_le_add_right (exponent_le x) 2)
      _ ≤ 644 := by decide

/-! ## The encoder -/

/-- The first cell is 0 to 3 (R104). -/
theorem ulawEnc_of_le_three {x : Int} (h : x.natAbs ≤ 3) : ulawEnc x = codeOf (signBit x) 0 0 := by
  have hb := biasedMagnitude_of_le (x := x) (by omega)
  exact ulawEnc_of_cell (by decide) (by omega) (by omega)

/-- The last cell has all of the clamped samples (R104). -/
theorem ulawEnc_of_clamped {x : Int} (h : 32635 ≤ x.natAbs) : ulawEnc x = codeOf (signBit x) 7 15 := by
  obtain ⟨he, hm⟩ := fields_of_clamped h
  rw [ulawEnc_eq_codeOf, he, hm]

theorem ulawEnc_eq_7F {x : Int} (hlo : -3 ≤ x) (hhi : x ≤ -1) : ulawEnc x = 0x7F := by
  rw [ulawEnc_of_le_three (by omega), signBit_of_neg (by omega)]
  rfl

/-- Settles O15: the witnesses are the model's own quantities. -/
theorem ulawEncFollowsTheAlgorithm : Obligations.UlawEncFollowsTheAlgorithm := by
  refine ⟨fun x _ _ => ?_, by decide, by decide⟩
  obtain ⟨lo, hi⟩ := segment_of_sample x
  refine ⟨clampedMagnitude x, biasedMagnitude x, exponent x, mantissa x, signBit x, rfl, ?_, clampedMagnitude_le x, rfl,
    lo, hi, exponent_le x, mantissa_eq_mod x, ulawEnc_eq_codeOf x⟩
  rw [clampedMagnitude, clip]
  split <;> omega

/-- Settles O16: a segment is an interval of biased magnitudes, and the mantissa counts the steps inside it. -/
theorem encoderSegmentsAreTheTable : Obligations.EncoderSegmentsAreTheTable := by
  refine ⟨fun x e _ => ?_, fun x y e hx hy hex hey => ?_, by decide⟩
  · have hpos : 1 ≤ 2 ^ e := Nat.one_le_two_pow
    have hb : biasedMagnitude x = min x.natAbs 32635 + 132 := rfl
    rw [exponentField_ulawEnc, exponent_eq_iff, hb, pow_add, pow_add]
    omega
  · rw [exponentField_ulawEnc] at hex hey
    rw [mantissaField_ulawEnc, mantissaField_ulawEnc, ← biasedMagnitude_of_le hx, ← biasedMagnitude_of_le hy,
      ← hex, biasedMagnitude_div_step, hex, ← hey, biasedMagnitude_div_step, Nat.add_left_cancel_iff]

/-- R106 (a): a greater magnitude is in a later segment, or later in the same one. -/
theorem magnitudeField_mono {x y : Int} (h : biasedMagnitude x ≤ biasedMagnitude y) :
    ((~~~ ulawEnc x).extractLsb' 0 7).toNat ≤ ((~~~ ulawEnc y).extractLsb' 0 7).toNat := by
  rw [magnitudeField_ulawEnc, magnitudeField_ulawEnc]
  obtain ⟨lo, -⟩ := segment_of_sample x
  obtain ⟨-, hi⟩ := segment_of_sample y
  have hle : exponent x + 7 < exponent y + 8 := (Nat.pow_lt_pow_iff_right (by decide)).1 (lo.trans_lt (h.trans_lt hi))
  rcases (by omega : exponent x < exponent y ∨ exponent x = exponent y) with hlt | heq
  · have := mantissa_le x
    omega
  · have hdiv := Nat.div_le_div_right (c := 2 ^ (exponent x + 3)) h
    rw [biasedMagnitude_div_step, heq, biasedMagnitude_div_step] at hdiv
    omega

theorem ulawEnc_neg_of_pos {x : Int} (h : 0 < x) : ulawEnc (-x) = ulawEnc x ^^^ 0x80 := by
  have hb : biasedMagnitude (-x) = biasedMagnitude x := by
    rw [biasedMagnitude, clampedMagnitude, Int.natAbs_neg]
    rfl
  have he : exponent (-x) = exponent x := by rw [exponent, hb, exponent]
  have hm : mantissa (-x) = mantissa x := by rw [mantissa, hb, he, mantissa]
  rw [ulawEnc_eq_codeOf, ulawEnc_eq_codeOf, he, hm, signBit_of_neg (by omega), signBit_of_nonneg h.le, codeOf_one]

/-- R106 (b): the two signs differ in the top bit of the code. -/
theorem ulawEnc_neg {x : Int} (h : x ≠ 0) : ulawEnc (-x) = ulawEnc x ^^^ 0x80 := by
  rcases lt_or_gt_of_ne h with hneg | hpos
  · have hflip := ulawEnc_neg_of_pos (x := -x) (by omega)
    rw [neg_neg] at hflip
    rw [hflip, BitVec.xor_assoc, BitVec.xor_self]
    exact BitVec.xor_zero.symm
  · exact ulawEnc_neg_of_pos hpos

/-- Settles O17: (a) by segment, (b) by the sign bit, (c) and (d) by decoding into the middle of a cell. -/
theorem encoderProperties : Obligations.EncoderProperties := by
  refine ⟨fun x y h => magnitudeField_mono (Nat.add_le_add_right h 132), fun x _ _ hx => ulawEnc_neg hx,
    fun u hu => ulawEnc_ulawDec hu, by decide,
    fun u hu => ⟨twos16 (ulawDec u), toInt_twos16_ulawDec u, ?_⟩, fun x => ulawEnc_eq_7F⟩
  rw [signed16, toInt_twos16_ulawDec, ulawEnc_ulawDec hu]

/-! ## The decoder -/

theorem ulawDec_range (u : Byte) : -32124 ≤ ulawDec u ∧ ulawDec u ≤ 32124 := by
  have := natAbs_ulawDec_le u
  omega

/-- Settles O18: the fields are those of the complement. -/
theorem ulawDecFollowsTheFormula : Obligations.UlawDecFollowsTheFormula := by
  refine ⟨fun u => ?_, fun u => ?_, by decide, by decide⟩
  · refine ⟨(~~~ u).toNat, _, _, _, BitVec.toNat_not, rfl, rfl, rfl, ?_⟩
    rw [ulawDec_eq, ← decodedMagnitude_add_bias]
    split <;> omega
  · obtain ⟨hlo, hhi⟩ := ulawDec_range u
    exact ⟨hlo, hhi, toInt_twos16_ulawDec u⟩

/-- Settles O19, by evaluation. -/
theorem decodeTableIsTheSpecs : Obligations.DecodeTableIsTheSpecs := by
  unfold Obligations.DecodeTableIsTheSpecs
  decide

/-! ## The round trip and the widths -/

/-- R110: the samples of the first cell come back as 0. -/
theorem ulawDec_ulawEnc_of_le_three {x : Int} (h : x.natAbs ≤ 3) : ulawDec (ulawEnc x) = 0 := by
  have hzero : decodedMagnitude 0 0 = 0 := rfl
  rw [← Int.natAbs_eq_zero, ulawEnc_of_le_three h, natAbs_ulawDec_codeOf (signBit_le x) (by decide) (by decide), hzero]

/-- Settles O20: the sign is kept, and the magnitude becomes the middle of its cell. -/
theorem roundTripErrorIsWithinHalfAStep : Obligations.RoundTripErrorIsWithinHalfAStep := by
  refine ⟨?_, fun x _ _ => roundTrip_error_le (by omega), by decide, by decide,
    fun x _ _ => ulawDec_ulawEnc_of_le_three (by omega)⟩
  rintro x _ _ rfl rfl
  rw [exponentField_ulawEnc, mantissaField_ulawEnc]
  refine ⟨?middle, fun hx => ?nonneg, fun hx => ?nonpos, roundTrip_error_le_half_step⟩
  case middle =>
    rw [natAbs_ulawDec_ulawEnc, decodedMagnitude_eq_middle]
    ring
  case nonneg =>
    rw [ulawDec_ulawEnc, if_neg (by omega)]
    omega
  case nonpos =>
    rcases hx.lt_or_eq with hneg | rfl
    · rw [ulawDec_ulawEnc, if_pos hneg]
      omega
    · exact (ulawDec_ulawEnc_of_le_three (by decide)).le

/-- Settles O21, by the ranges of the fields. -/
theorem codecQuantitiesStayInWidth : Obligations.CodecQuantitiesStayInWidth := by
  refine ⟨fun x hlo hhi => ?_, fun e m he hm => ?_⟩
  · have hmag := clampedMagnitude_le x
    obtain ⟨hb, hb'⟩ := biasedMagnitude_range x
    have he := exponent_le x
    have hm := mantissa_le x
    omega
  · have hsum := decodedMagnitude_add_bias e m
    have hle := decodedMagnitude_le he hm
    have hshift : ((m <<< 3) + 0x84) <<< e = decodedMagnitude e m + 132 := by
      rw [hsum, Nat.shiftLeft_eq, Nat.shiftLeft_eq]
    omega

/-! ## Single codes and samples -/

/-- Settles O22, by `exec_ulawEnc` and the first and the last cell; the worked example evaluates. -/
theorem ulawEncCommand : Obligations.UlawEncCommand := by
  refine ⟨fun w => let ⟨enc, _⟩ := listedOpcodesDecodeToTheirSlices w; enc, fun x s h => exec_ulawEnc h x,
    fun x s h => exec_over_capacity h _, fun x _ _ => ?_, fun x => ulawEnc_eq_7F, fun x hx => ?_, fun x hx => ?_,
    fun s h => exec_ulawEnc h _⟩
  · rw [ulawEnc_of_le_three (by omega), signBit_of_nonneg (by omega)]
    rfl
  · rw [ulawEnc_of_clamped (by omega), signBit_of_nonneg (by omega)]
    rfl
  · rw [ulawEnc_of_clamped (by omega), signBit_of_neg (by omega)]
    rfl

/-- Settles O23, by `exec_ulawDec` and the range of the decoder; the corner cases and the worked example evaluate. -/
theorem ulawDecCommand : Obligations.UlawDecCommand :=
  ⟨fun w => let ⟨_, dec, _⟩ := listedOpcodesDecodeToTheirSlices w; dec, fun u s h => exec_ulawDec h u,
    fun u s h => exec_over_capacity h _, by decide, by decide, by decide, by decide, ulawDec_range,
    fun s h => exec_ulawDec h _⟩

/-! ## Buffers of codes and of samples (R44, R111, R112) -/

theorem toNat_le16 (b0 b1 : Byte) : (le16 b0 b1).toNat = b0.toNat + 256 * b1.toNat := by
  have h0 := b0.isLt
  have h1 := b1.isLt
  have hhigh : (b1.zeroExtend 16 <<< 8).toNat = b1.toNat <<< 8 := by
    rw [BitVec.toNat_shiftLeft, BitVec.zeroExtend, BitVec.toNat_setWidth, Nat.shiftLeft_eq, Nat.shiftLeft_eq]
    omega
  have hlow : (b0.zeroExtend 16).toNat = b0.toNat := by
    rw [BitVec.zeroExtend, BitVec.toNat_setWidth]
    omega
  rw [le16, BitVec.toNat_or, hhigh, hlow, ← Nat.shiftLeft_add_eq_or_of_lt h0, Nat.shiftLeft_eq]
  omega

theorem le16_eq_ofNat (b0 b1 : Byte) : le16 b0 b1 = BitVec.ofNat 16 (b0.toNat + 256 * b1.toNat) := by
  rw [← toNat_le16, BitVec.ofNat_toNat, BitVec.setWidth_eq]

/-- A sample is its two bytes, the first one the less significant. -/
theorem le16_bytesLe16 (v : Sample) : le16 (v.extractLsb' 0 8) (v.extractLsb' 8 8) = v := by
  have hv := v.isLt
  apply BitVec.eq_of_toNat_eq
  rw [toNat_le16, BitVec.extractLsb'_toNat, BitVec.extractLsb'_toNat, Nat.shiftRight_eq_div_pow,
    Nat.shiftRight_eq_div_pow]
  omega

theorem getElem?_codesFrom (din : Buffer) {k j : Nat} (h : j < k) :
    (codesFrom din 0 k)[j]? = some (ulawEnc (sampleAt din j)) := by
  simp [codesFrom, h]

theorem pcmFrom_succ (din : Buffer) (base i k : Nat) : pcmFrom din base i (k + 1) =
    bytesLe16 (twos16 (ulawDec (din.getD (base + i) 0))) ++ pcmFrom din base (i + 1) k := by
  simp [pcmFrom, List.range'_succ]

/-- Bytes `2j` and `2j + 1` of the decoded codes are those of code `j`. -/
theorem getElem?_pcmFrom (din : Buffer) (base : Nat) {j : Nat} : ∀ {i k : Nat}, j < k →
    (pcmFrom din base i k)[2 * j]? = some ((twos16 (ulawDec (din.getD (base + i + j) 0))).extractLsb' 0 8) ∧
    (pcmFrom din base i k)[2 * j + 1]? = some ((twos16 (ulawDec (din.getD (base + i + j) 0))).extractLsb' 8 8) := by
  induction j with
  | zero =>
    intro i k h
    obtain ⟨k, rfl⟩ := Nat.exists_eq_add_one.2 h
    rw [pcmFrom_succ]
    exact ⟨rfl, rfl⟩
  | succ j ih =>
    intro i k h
    obtain ⟨k, rfl⟩ := Nat.exists_eq_add_one.2 (Nat.zero_lt_of_lt h)
    have hrest := ih (i := i + 1) (k := k) (by omega)
    rw [show base + (i + 1) + j = base + i + (j + 1) by omega] at hrest
    rw [pcmFrom_succ]
    exact hrest

/-- The PCM bytes of codes, read as samples, are the decoded codes. -/
theorem sampleAt_pcmFrom (din : Buffer) (base i : Nat) {k j : Nat} (h : j < k) :
    sampleAt (pcmFrom din base i k) j = ulawDec (din.getD (base + i + j) 0) := by
  obtain ⟨hlow, hhigh⟩ := getElem?_pcmFrom din base (i := i) h
  rw [sampleAt, List.getD_eq_getElem?_getD, List.getD_eq_getElem?_getD, hlow, hhigh, Option.getD_some,
    Option.getD_some, le16_bytesLe16, signed16, toInt_twos16_ulawDec]

theorem natAbs_sampleAt_le (b : Buffer) (i : Nat) : (sampleAt b i).natAbs ≤ 32768 := by
  have hlo := BitVec.le_toInt (le16 (b.getD (2 * i) 0) (b.getD (2 * i + 1) 0))
  have hhi := BitVec.toInt_lt (x := le16 (b.getD (2 * i) 0) (b.getD (2 * i + 1) 0))
  rw [sampleAt, signed16]
  omega

theorem sampleAt_replicate_zero (n i : Nat) : sampleAt (List.replicate n 0) i = 0 := by
  have hzero (j : Nat) : (List.replicate n (0 : Byte)).getD j 0 = 0 := by
    rw [List.getD_eq_getElem?_getD, List.getElem?_replicate]
    split <;> rfl
  rw [sampleAt, hzero, hzero]
  rfl

/-- A silent PCM buffer encodes to codes of zero (R111). -/
theorem codesFrom_replicate_zero (n k : Nat) : codesFrom (List.replicate n 0) 0 k = List.replicate k 0xFF := by
  refine List.eq_replicate_iff.2 ⟨codesFrom_length .., fun b hb => ?_⟩
  obtain ⟨j, -, rfl⟩ := List.mem_map.1 hb
  rw [sampleAt_replicate_zero]
  decide

/-- Codes of zero decode to a silent PCM buffer (R112). -/
theorem pcmFrom_replicate_FF (n : Nat) : pcmFrom (List.replicate n 0xFF) 0 0 n = List.replicate (2 * n) 0 := by
  refine List.eq_replicate_iff.2 ⟨pcmFrom_length .., fun b hb => ?_⟩
  obtain ⟨j, hj, hb⟩ := List.mem_flatMap.1 hb
  have hlt : j < n := by
    rw [List.mem_range'_1] at hj
    omega
  have hsilent : bytesLe16 (twos16 (ulawDec 0xFF)) = [0, 0] := by decide
  rw [Nat.zero_add, List.getD_replicate _ hlt, hsilent] at hb
  simpa using hb

/-- Settles O24: `exec_ulawEncb` gives the codes of the samples. -/
theorem ulawEncbCommand : Obligations.UlawEncbCommand := by
  refine ⟨fun w => let ⟨_, _, encb, _⟩ := listedOpcodesDecodeToTheirSlices w; encb,
    fun s h => ⟨_, exec_ulawEncb h, codesFrom_length .., fun i b0 b1 h0 h1 => ?_⟩,
    fun s h => exec_over_capacity h _, fun s h hd => ?_, fun s h hd => ?_⟩
  · have hlt : 2 * i + 1 < s.din.length := (List.getElem?_eq_some_iff.1 h1).1
    rw [getElem?_codesFrom _ (by omega), sampleAt, List.getD_eq_getElem?_getD, List.getD_eq_getElem?_getD, h0, h1,
      Option.getD_some, Option.getD_some, le16_eq_ofNat, signed16]
  · have hdout : codesFrom s.din 0 (s.din.length / 2) = List.replicate 160 0xFF := by
      rw [hd, codesFrom_replicate_zero, List.length_replicate]
    rw [exec_ulawEncb h, hdout]
    rfl
  · have hdout : codesFrom s.din 0 (s.din.length / 2) = [0xCE, 0x4E] := by
      rw [hd]
      decide
    rw [exec_ulawEncb h, hdout]
    rfl

/-- Settles O25: `exec_ulawDecb` gives the PCM bytes of the codes. -/
theorem ulawDecbCommand : Obligations.UlawDecbCommand := by
  refine ⟨fun w => let ⟨_, _, _, decb, _⟩ := listedOpcodesDecodeToTheirSlices w; decb,
    fun s h => ⟨_, exec_ulawDecb h, pcmFrom_length .., fun i u hu => ?_⟩,
    fun s h => exec_over_capacity h _, fun s h hd => ?_, fun s h hd => ?_⟩
  · have hlt : i < s.din.length := (List.getElem?_eq_some_iff.1 hu).1
    have hbytes := getElem?_pcmFrom s.din 0 (i := 0) hlt
    rwa [Nat.zero_add, List.getD_eq_getElem?_getD, hu, Option.getD_some] at hbytes
  · have hdout : pcmFrom s.din 0 0 s.din.length = List.replicate 320 0 := by
      rw [hd, List.length_replicate, pcmFrom_replicate_FF]
    rw [exec_ulawDecb h, hdout]
    rfl
  · have hdout : pcmFrom s.din 0 0 s.din.length = [0xDC, 0x03, 0x24, 0xFC, 0x7C, 0x7D] := by
      rw [hd]
      decide
    rw [exec_ulawDecb h, hdout]
    rfl

/-! ## One batch after the other (R113) -/

/-- The codes of decoded codes are the codes, negative zero as zero. -/
theorem codesFrom_pcmFrom (din : Buffer) :
    codesFrom (pcmFrom din 0 0 din.length) 0 din.length = din.map (fun u => if u = 0x7F then 0xFF else u) := by
  refine List.ext_getElem? fun j => ?_
  rcases Nat.lt_or_ge j din.length with h | h
  · rw [getElem?_codesFrom _ h, sampleAt_pcmFrom _ _ _ h, ulawEnc_ulawDec_eq_ite, List.getElem?_map,
      List.getElem?_eq_getElem h, Nat.zero_add, List.getD_eq_getElem _ _ h]
    rfl
  · rw [List.getElem?_eq_none (by simpa using h), List.getElem?_eq_none (by simpa using h)]

/-- Settles O26, by `codesFrom_pcmFrom`. -/
theorem encodeAfterDecodeRestoresTheCodes : Obligations.EncodeAfterDecodeRestoresTheCodes := by
  intro s h
  have hlen := pcmFrom_length s.din 0 0 s.din.length
  refine ⟨_, _, exec_ulawDecb (by omega), exec_ulawEncb (hlen.trans_le h), rfl, ?_⟩
  change codesFrom (pcmFrom s.din 0 0 s.din.length) 0 ((pcmFrom s.din 0 0 s.din.length).length / 2) = _
  rw [hlen, Nat.mul_div_cancel_left _ (by decide), codesFrom_pcmFrom]

/-- A PCM buffer encoded and decoded again holds the round trips of its samples. -/
theorem sampleAt_pcmFrom_codesFrom (din : Buffer) {k i : Nat} (h : i < k) :
    sampleAt (pcmFrom (codesFrom din 0 k) 0 0 (codesFrom din 0 k).length) i = ulawDec (ulawEnc (sampleAt din i)) := by
  rw [codesFrom_length, sampleAt_pcmFrom _ _ _ h, Nat.zero_add, List.getD_eq_getElem?_getD, getElem?_codesFrom _ h,
    Option.getD_some]

/-- Settles O27: each sample makes the round trip of R110. -/
theorem decodeAfterEncodeStaysWithinTheBound : Obligations.DecodeAfterEncodeStaysWithinTheBound := by
  intro s h
  have hlen := codesFrom_length s.din 0 (s.din.length / 2)
  refine ⟨_, _, exec_ulawEncb h, exec_ulawDecb (hlen.trans_le ((Nat.div_le_self ..).trans h)), rfl,
    (pcmFrom_length ..).trans (congrArg (2 * ·) hlen), fun i hi => ?_⟩
  have htrip := sampleAt_pcmFrom_codesFrom s.din hi
  have herror := congrArg (fun y => (y - sampleAt s.din i).natAbs) htrip
  exact ⟨htrip, fun hle => herror.trans_le (roundTrip_error_le_half_step hle),
    herror.trans_le (roundTrip_error_le (natAbs_sampleAt_le ..))⟩

end Sys2Proof.Machine

/-! The RTP framer (spec/41_rtp_framer.md): the four framer commands whole, the bytes and the fields of the header value,
and what is read back from a built packet. -/

namespace Sys2Proof.Machine

/-! ## The framer commands without the header value (R131, R134, R136, R138) -/

/-- Settles O29, by `exec_rtpReset`; a stated draw is the head of the list. -/
theorem rtpResetCommand : Obligations.RtpResetCommand := by
  refine ⟨fun w => let ⟨_, _, _, _, reset, _⟩ := listedOpcodesDecodeToTheirSlices w; reset,
    fun s h => exec_rtpReset h, fun _ _ _ hd => rnd_of_cons hd, fun s h => exec_over_capacity h _, fun s ds h hd => ?_⟩
  have htail : (consumeDraw s).entropy = ds := congrArg List.tail hd
  rw [exec_rtpReset h, rnd_of_cons hd, ← htail]
  rfl

/-- Settles O30, by the two cases of an `RTP.BUILD` within capacity; the worked example wraps `SEQ`. -/
theorem rtpBuildCommand : Obligations.RtpBuildCommand := by
  refine ⟨fun w => let ⟨_, _, _, _, _, build, _⟩ := listedOpcodesDecodeToTheirSlices w; build,
    fun pt sc s h hv => exec_rtpBuild_of_valid h hv pt sc, fun pt sc s h => exec_over_capacity h _,
    fun pt sc s h hv => exec_rtpBuild_of_invalid h hv pt sc, fun s h hv hseq hts hssrc hd => ?_⟩
  rw [exec_rtpBuild_of_valid h hv, advanceStream, hseq, hts, hssrc, hd]
  rfl

/-- Settles O31: the header of a build is made of the values before it, and `RTP.RESET` leaves those of the draw. -/
theorem firstPacketAfterStreamResetCarriesTheDraw : Obligations.FirstPacketAfterStreamResetCarriesTheDraw :=
  ⟨fun pt sc _ h hv => ⟨_, exec_rtpBuild_of_valid h hv pt sc, rfl, rfl, rfl⟩,
    fun pt sc s h => ⟨_, _, exec_rtpReset h, exec_rtpBuild_of_valid (s := startStream s) h rfl pt sc, rfl, rfl⟩⟩

/-- Settles O33: `exec_rtpParse` drops the header, which is everything of a packet of at most 12 bytes. -/
theorem rtpParseCommand : Obligations.RtpParseCommand := by
  refine ⟨fun w => let ⟨_, _, _, _, _, _, parse, _⟩ := listedOpcodesDecodeToTheirSlices w; parse,
    fun s h => ⟨_, exec_rtpParse h, List.drop_eq_nil_of_le, fun _ => ⟨List.length_drop, fun i _ => List.getElem?_drop⟩⟩,
    fun s h => exec_over_capacity h _, fun s h hd => ?_, fun s h hd => ?_⟩
  · have hrest : s.din.drop headerSize = [0xAA, 0xBB] := by
      rw [hd]
      rfl
    rw [exec_rtpParse h, hrest]
    rfl
  · have hrest : s.din.drop headerSize = [] := by
      rw [hd]
      rfl
    rw [exec_rtpParse h, hrest]
    rfl

/-! ## The header value (R68, R76, R140) -/

/-- A slice within byte `k` of a 12-byte header, as a slice of `HDR`. -/
theorem extractLsb'_headerValue {bs : Buffer} (h : bs.length = 12) {k i n : Nat} (hk : k < 12) (hn : i + n ≤ 8) :
    (headerValue bs).extractLsb' (8 * (11 - k) + i) n = (bs.getD k 0).extractLsb' i n := by
  apply BitVec.eq_of_getLsbD_eq
  intro j hj
  rw [BitVec.getLsbD_extractLsb', BitVec.getLsbD_extractLsb', Nat.add_assoc, headerValue_getLsbD h hk (by omega)]

/-- Byte `k` of a 12-byte header is byte `k` of `HDR` from its most significant end. -/
theorem headerValue_byte {bs : Buffer} (h : bs.length = 12) {k : Nat} (hk : k < 12) :
    (headerValue bs).extractLsb' (8 * (11 - k)) 8 = bs.getD k 0 :=
  (extractLsb'_headerValue h hk (i := 0) le_rfl).trans BitVec.extractLsb'_eq_self

/-- Settles O34: the header value of the first 12 bytes, byte by byte. -/
theorem rtpHdrCommand : Obligations.RtpHdrCommand := by
  refine ⟨fun w => let ⟨_, _, _, _, _, _, _, hdr, _⟩ := listedOpcodesDecodeToTheirSlices w; hdr,
    fun s h hl => ⟨_, exec_rtpHdr_of_long h hl, fun k hk => ?_⟩, fun s hl => ?_,
    fun s h => exec_over_capacity h _, fun s h hd => ?_⟩
  · rw [headerValue_byte (List.length_take_of_le hl) hk, List.getD_eq_getElem?_getD, List.getElem?_take_of_lt hk,
      List.getElem?_eq_getElem (hk.trans_le hl), Option.getD_some]
  · rcases Nat.lt_or_ge s.config.dinMax s.din.length with h | h
    · exact exec_over_capacity h _
    · exact exec_rtpHdr_of_short h hl
  · have hvalue : headerValue (s.din.take headerSize) = 0x806000010000009F00000001 := by
      rw [hd]
      decide
    rw [exec_rtpHdr_of_long h (by rw [hd]; decide), hvalue]
    rfl

/-! ## The fields of a built header (R76, R133) -/

/-- Two slices are equal when their upper and their lower parts are. -/
theorem extractLsb'_add_congr {a b : Nat} {v : BitVec a} {w : BitVec b} {i j m n : Nat}
    (hhigh : v.extractLsb' (i + m) n = w.extractLsb' (j + m) n) (hlow : v.extractLsb' i m = w.extractLsb' j m) :
    v.extractLsb' i (n + m) = w.extractLsb' j (n + m) := by
  rw [← BitVec.extractLsb'_append_extractLsb'_eq_extractLsb' rfl, hhigh, hlow,
    BitVec.extractLsb'_append_extractLsb'_eq_extractLsb' rfl]

/-- Two 32-bit slices are equal when their four bytes are. -/
theorem extractLsb'_32_congr {a b : Nat} {v : BitVec a} {w : BitVec b} {i j : Nat}
    (h : ∀ k < 4, v.extractLsb' (i + 8 * k) 8 = w.extractLsb' (j + 8 * k) 8) :
    v.extractLsb' i 32 = w.extractLsb' j 32 :=
  extractLsb'_add_congr (n := 16) (m := 16)
    (extractLsb'_add_congr (n := 8) (m := 8) (h 3 (by decide)) (h 2 (by decide)))
    (extractLsb'_add_congr (n := 8) (m := 8) (h 1 (by decide)) (h 0 (by decide)))

/-- A 32-bit value that stands big-endian from byte `k` of a 12-byte header on, as a slice of `HDR` (R43). -/
theorem headerValue_bytesBe32 {bs : Buffer} (h : bs.length = 12) {v : BitVec 32} {k : Nat} (hk : k ≤ 8)
    (hv : (bs.drop k).take 4 = bytesBe32 v) : (headerValue bs).extractLsb' (8 * (8 - k)) 32 = v := by
  refine (extractLsb'_32_congr fun j hj => ?_).trans BitVec.extractLsb'_eq_self
  have hbyte := headerValue_byte h (k := k + (3 - j)) (by omega)
  have hvalue : bs.getD (k + (3 - j)) 0 = (bytesBe32 v).getD (3 - j) 0 := by
    rw [← hv, List.getD_eq_getElem?_getD, List.getD_eq_getElem?_getD, List.getElem?_take_of_lt (by omega),
      List.getElem?_drop]
  rw [show 8 * (11 - (k + (3 - j))) = 8 * (8 - k) + 8 * j by omega, hvalue] at hbyte
  rw [hbyte]
  interval_cases j <;> rfl

section BuiltHeader
variable (pt : Byte) (seq : BitVec 16) (ts ssrc : BitVec 32)

theorem hdrVersion_rtpHeader : hdrVersion (headerValue (rtpHeader pt seq ts ssrc)) = 2 :=
  (extractLsb'_headerValue (rtpHeader_length ..) (k := 0) (i := 6) (n := 2) (by decide) le_rfl).trans
    (show (0x80 : Byte).extractLsb' 6 2 = 2 by decide)

theorem hdrFlags_rtpHeader : hdrFlags (headerValue (rtpHeader pt seq ts ssrc)) = 0 :=
  (extractLsb'_headerValue (rtpHeader_length ..) (k := 0) (i := 0) (n := 6) (by decide) (by decide)).trans
    (show (0x80 : Byte).extractLsb' 0 6 = 0 by decide)

/-- The mask of the payload type clears the marker bit (R72). -/
theorem hdrMarker_rtpHeader : hdrMarker (headerValue (rtpHeader pt seq ts ssrc)) = false := by
  refine (headerValue_getLsbD (rtpHeader_length ..) (k := 1) (i := 7) (by decide) (by decide)).trans ?_
  exact BitVec.getLsbD_and.trans (Bool.and_false _)

theorem hdrPayloadType_rtpHeader :
    hdrPayloadType (headerValue (rtpHeader pt seq ts ssrc)) = pt.extractLsb' 0 7 :=
  (extractLsb'_headerValue (rtpHeader_length ..) (k := 1) (i := 0) (n := 7) (by decide) (by decide)).trans
    (extractLsb'_and_7F pt)

theorem hdrSequence_rtpHeader : hdrSequence (headerValue (rtpHeader pt seq ts ssrc)) = seq := by
  have hbyte {k : Nat} := headerValue_byte (rtpHeader_length pt seq ts ssrc) (k := k)
  exact (extractLsb'_add_congr (j := 0) (n := 8) (m := 8)
    (hbyte (k := 2) (by decide)) (hbyte (k := 3) (by decide))).trans BitVec.extractLsb'_eq_self

theorem hdrTimestamp_rtpHeader : hdrTimestamp (headerValue (rtpHeader pt seq ts ssrc)) = ts :=
  headerValue_bytesBe32 (rtpHeader_length ..) (k := 4) (by decide) rfl

theorem hdrSsrc_rtpHeader : hdrSsrc (headerValue (rtpHeader pt seq ts ssrc)) = ssrc :=
  headerValue_bytesBe32 (rtpHeader_length ..) (k := 8) (by decide) rfl

end BuiltHeader

/-! ## Reading a built packet back (R139, R141) -/

/-- Settles O35: what follows the 12 bytes of the header is the payload. -/
theorem parseUndoesBuild : Obligations.ParseUndoesBuild := by
  intro pt sc s hv hcap
  refine ⟨_, _, exec_rtpBuild_of_valid (by omega) hv pt sc, exec_rtpParse ?_, rfl, rfl⟩
  exact (List.length_append ..).trans_le hcap

/-- Settles O36: the first 12 bytes of the packet are the header built, read field by field. -/
theorem headerReadBackGivesWhatWasSet : Obligations.HeaderReadBackGivesWhatWasSet := by
  intro pt sc s hv hcap
  have hlen : (rtpHeader pt s.seq s.ts s.ssrc ++ s.din).length = 12 + s.din.length := List.length_append ..
  refine ⟨_, _, exec_rtpBuild_of_valid (by omega) hv pt sc,
    exec_rtpHdr_of_long (hlen.trans_le hcap) ((Nat.le_add_right ..).trans_eq hlen.symm), rfl,
    hdrVersion_rtpHeader .., hdrFlags_rtpHeader .., hdrMarker_rtpHeader .., ?_,
    hdrSequence_rtpHeader .., hdrTimestamp_rtpHeader .., hdrSsrc_rtpHeader ..⟩
  have hpt := congrArg BitVec.toNat (hdrPayloadType_rtpHeader pt s.seq s.ts s.ssrc)
  exact hpt.trans (BitVec.extractLsb'_toNat ..)

end Sys2Proof.Machine

/-! The frame paths (spec/42_frame_path.md): `TX.FRAME` and `RX.PKT` whole, each as the chain of the commands it stands
for, and what the receive path makes of a datagram of the transmit path. -/

namespace Sys2Proof.Machine

/-! ## The receive path (R163, R164) -/

/-- R164: the PCM bytes are those of the packet without its header, which is empty for a packet of at most 12 bytes. -/
theorem exec_rxPkt_eq_decoded_payload {s : State} (h : WithinCapacity s) :
    exec .rxPkt s = .next (respond
      (Response.okDout (pcmFrom (s.din.drop headerSize) 0 0 (s.din.drop headerSize).length)) s) := by
  rw [exec_rxPkt h, pcmFrom_drop, List.length_drop]

/-- Settles O41: `exec_rxPkt` gives the PCM bytes of the codes from byte 12 on. -/
theorem rxPktCommand : Obligations.RxPktCommand := by
  refine ⟨fun w => let ⟨_, _, _, _, _, _, _, _, _, rx⟩ := listedOpcodesDecodeToTheirSlices w; rx,
    fun s h => ⟨_, exec_rxPkt h, fun hl => ?_, fun _ => ⟨pcmFrom_length .., fun i u hu => ?_⟩⟩,
    fun s h => exec_over_capacity h _, fun s h hd => ?_⟩
  · rw [Nat.sub_eq_zero_of_le hl]
    rfl
  · have hlt : 12 + i < s.din.length := (List.getElem?_eq_some_iff.1 hu).1
    have hbytes := getElem?_pcmFrom s.din headerSize (i := 0) (show i < s.din.length - 12 by omega)
    rwa [Nat.add_zero, List.getD_eq_getElem?_getD, hu, Option.getD_some] at hbytes
  · have hdout : pcmFrom s.din headerSize 0 (s.din.length - headerSize) = [0xDC, 0x03, 0x24, 0xFC] := by
      rw [hd]
      decide
    rw [exec_rxPkt h, hdout]
    rfl

/-- Settles O42: `RTP.PARSE` drops the header and `ULAW.DECB` decodes the rest, as `exec_rxPkt_eq_decoded_payload`
does at once. -/
theorem rxPktIsParseThenDecode : Obligations.RxPktIsParseThenDecode := by
  intro s h
  exact ⟨_, _, exec_rtpParse h, exec_ulawDecb ((List.drop_sublist ..).length_le.trans h),
    exec_rxPkt_eq_decoded_payload h⟩

/-! ## The transmit path (R160, R161, R162) -/

section WholeFrame
variable {s : State} (h : WithinCapacity s) (hl : s.din.length = 320)
include h hl

/-- A frame encodes to one code per sample (R111). -/
theorem exec_ulawEncb_of_frame :
    exec .ulawEncb s = .next (respond (Response.okDout (codesFrom s.din 0 frameSamples)) s) := by
  rw [exec_ulawEncb h, hl]

/-- A whole frame goes out as a packet of payload type 0 and 160 samples (R160). -/
theorem exec_txFrame_eq_sendPacket (hv : s.valid = true) :
    exec .txFrame s = .next (sendPacket ptPcmu 160 (codesFrom s.din 0 frameSamples) s) :=
  exec_txFrame_of_whole h hl hv

/-- The packet of a frame is within the capacity that the frame itself is within (R42). -/
theorem framePacket_within_capacity : 12 + (codesFrom s.din 0 frameSamples).length ≤ s.config.dinMax := by
  have hcodes : (codesFrom s.din 0 frameSamples).length = 160 := codesFrom_length ..
  omega

end WholeFrame

/-- Settles O38, by the cases of `TX.FRAME` in the order of R185. -/
theorem txFrameCommand : Obligations.TxFrameCommand := by
  refine ⟨fun w => let ⟨_, _, _, _, _, _, _, _, tx, _⟩ := listedOpcodesDecodeToTheirSlices w; tx,
    fun s h hv hl => ⟨_, exec_txFrame_eq_sendPacket h hl hv, codesFrom_length .., fun i => getElem?_codesFrom _⟩,
    fun s hlong => ?_, fun s h hl hv => exec_txFrame_of_invalid h hl hv,
    fun s h hl hv => exec_txFrame_of_short h hl hv, fun s h hv hseq hts hssrc hd => ?_⟩
  · rcases Nat.lt_or_ge s.config.dinMax s.din.length with h | h
    · exact exec_over_capacity h _
    · exact exec_txFrame_of_long h (hlong.resolve_left h.not_gt)
  · have hl : s.din.length = 320 := by rw [hd, List.length_replicate]
    rw [exec_txFrame_eq_sendPacket h hl hv, sendPacket, advanceStream, hseq, hts, hssrc, hd, codesFrom_replicate_zero]
    rfl

/-- Settles O39: the case of the short frame. -/
theorem shortFrameBuildsNothing : Obligations.ShortFrameBuildsNothing :=
  fun _ h hl hv => ⟨_, exec_txFrame_of_short h hl hv, rfl, rfl, rfl, rfl, rfl⟩

/-- Settles O40: both ways send the packet of the 160 codes. -/
theorem txFrameIsEncodeThenBuild : Obligations.TxFrameIsEncodeThenBuild := by
  intro s h hv hl
  have hcap : WithinCapacity { s with din := codesFrom s.din 0 frameSamples } :=
    Nat.le_of_add_left_le (framePacket_within_capacity h hl)
  exact ⟨_, _, exec_ulawEncb_of_frame h hl, codesFrom_length .., exec_rtpBuild_of_valid hcap hv 0 160,
    exec_txFrame_eq_sendPacket h hl hv⟩

/-! ## From the transmit path to the receive path (R166, R167) -/

/-- What a packet gives the receive path is its payload decoded, whatever the header holds. -/
theorem exec_rxPkt_of_packet {pt : Byte} {seq : BitVec 16} {ts ssrc : BitVec 32} {payload : Buffer} {s : State}
    (hd : s.din = rtpHeader pt seq ts ssrc ++ payload) (h : 12 + payload.length ≤ s.config.dinMax) :
    exec .rxPkt s = .next (respond (Response.okDout (pcmFrom payload 0 0 payload.length)) s) := by
  have hcap : WithinCapacity s := by
    rw [WithinCapacity, hd]
    exact (List.length_append ..).trans_le h
  rw [exec_rxPkt_eq_decoded_payload hcap, hd]
  rfl

/-- Settles O43: silence is 160 codes 0xFF, and they decode to silence. -/
theorem silenceGoesThroughEndToEnd : Obligations.SilenceGoesThroughEndToEnd := by
  intro s h hv hd
  have hl : s.din.length = 320 := by rw [hd, List.length_replicate]
  have hcodes : codesFrom s.din 0 frameSamples = List.replicate 160 0xFF := by rw [hd, codesFrom_replicate_zero]
  refine ⟨_, _, _, exec_ulawEncb_of_frame h hl, hcodes, exec_txFrame_eq_sendPacket h hl hv,
    (List.length_append ..).trans (congrArg (12 + ·) (codesFrom_length ..)), rfl, rfl,
    exec_rxPkt_of_packet rfl (framePacket_within_capacity h hl), ?_⟩
  change pcmFrom (codesFrom s.din 0 frameSamples) 0 0 (codesFrom s.din 0 frameSamples).length = _
  rw [hcodes, List.length_replicate, pcmFrom_replicate_FF]

/-- Settles O44: the receive path answers what `ULAW.DECB` answers to the codes of the frame (R113). -/
theorem loopBackReturnsTheQuantizedFrame : Obligations.LoopBackReturnsTheQuantizedFrame := by
  intro s h hv hl
  have hcap := framePacket_within_capacity h hl
  obtain ⟨t, r, ht, hr, -, hlen, hbound⟩ := decodeAfterEncodeStaysWithinTheBound s h
  cases ht.symm.trans (exec_ulawEncb_of_frame h hl)
  cases hr.symm.trans (exec_ulawDecb (Nat.le_of_add_left_le hcap))
  rw [hl] at hlen hbound
  exact ⟨_, _, exec_txFrame_eq_sendPacket h hl hv, exec_rxPkt_of_packet rfl hcap, rfl, hlen, hbound⟩

end Sys2Proof.Machine

/-! The refusals of the block (spec/60_exceptions.md): which status a command answers, by the first cause in the order
of checks, and what a refused command leaves behind. -/

namespace Sys2Proof.Machine

/-! ## The causes of a refusal (R183, R184) -/

/-- R183 (b), (c): the commands that check the length of `DIN` themselves, with the lengths they refuse. -/
inductive OwnLengthRefused : Instr → Nat → Prop where
  | frame {n : Nat} (h : 320 < n) : OwnLengthRefused .txFrame n
  | header {n : Nat} (h : n < 12) : OwnLengthRefused .rtpHdr n

/-- R184: the commands that read the stream registers to build a packet. -/
inductive BuildsPacket : Instr → Prop where
  | build (pt : Byte) (sc : BitVec 32) : BuildsPacket (.rtpBuild pt sc)
  | frame : BuildsPacket .txFrame

/-- R185: the status that the first cause in the order of checks gives, `OK` where there is none. -/
inductive FirstCause (i : Instr) (s : State) : Status → Prop where
  | overCapacity (hover : s.config.dinMax < s.din.length) : FirstCause i s .badlen
  | ownLength (hcap : WithinCapacity s) (hlen : OwnLengthRefused i s.din.length) : FirstCause i s .badlen
  | noStream (hcap : WithinCapacity s) (hlen : ¬ OwnLengthRefused i s.din.length) (hbuild : BuildsPacket i)
      (hv : s.valid = false) : FirstCause i s .nostream
  | noCause (hcap : WithinCapacity s) (hlen : ¬ OwnLengthRefused i s.din.length)
      (hstream : BuildsPacket i → s.valid = true) : FirstCause i s .ok

theorem ownLengthRefused_iff {i : Instr} {n : Nat} :
    OwnLengthRefused i n ↔ (i = .txFrame ∧ 320 < n) ∨ (i = .rtpHdr ∧ n < 12) where
  mp := by
    rintro (h | h)
    · exact .inl ⟨rfl, h⟩
    · exact .inr ⟨rfl, h⟩
  mpr := by
    rintro (⟨rfl, h⟩ | ⟨rfl, h⟩)
    · exact .frame h
    · exact .header h

theorem buildsPacket_iff {i : Instr} : BuildsPacket i ↔ (∃ pt sc, i = .rtpBuild pt sc) ∨ i = .txFrame where
  mp := by
    rintro (⟨pt, sc⟩ | _)
    · exact .inl ⟨pt, sc, rfl⟩
    · exact .inr rfl
  mpr := by
    rintro (⟨pt, sc, rfl⟩ | rfl)
    · exact .build pt sc
    · exact .frame

/-- A build checks no length of its own but that of a frame. -/
theorem buildsPacket_and_not_ownLengthRefused_iff {i : Instr} {n : Nat} :
    BuildsPacket i ∧ ¬ OwnLengthRefused i n ↔ (∃ pt sc, i = .rtpBuild pt sc) ∨ (i = .txFrame ∧ n ≤ 320) where
  mp := by
    rintro ⟨⟨pt, sc⟩ | _, hlen⟩
    · exact .inl ⟨pt, sc, rfl⟩
    · exact .inr ⟨rfl, not_lt.1 (hlen ∘ .frame)⟩
  mpr := by
    rintro (⟨pt, sc, rfl⟩ | ⟨rfl, hn⟩)
    · exact ⟨.build pt sc, nofun⟩
    · exact ⟨.frame, fun | .frame h => h.not_ge hn⟩

/-- R185: every command answers the status of its first cause. -/
theorem exec_answers_firstCause (i : Instr) (s : State) :
    ∃ t, exec i s = .next t ∧ FirstCause i s t.response.status := by
  rcases Nat.lt_or_ge s.config.dinMax s.din.length with hover | h
  · exact ⟨_, exec_over_capacity hover i, .overCapacity hover⟩
  cases i with
  | ulawEnc x => exact ⟨_, exec_ulawEnc h x, .noCause h nofun nofun⟩
  | ulawDec u => exact ⟨_, exec_ulawDec h u, .noCause h nofun nofun⟩
  | ulawEncb => exact ⟨_, exec_ulawEncb h, .noCause h nofun nofun⟩
  | ulawDecb => exact ⟨_, exec_ulawDecb h, .noCause h nofun nofun⟩
  | rtpReset => exact ⟨_, exec_rtpReset h, .noCause h nofun nofun⟩
  | rtpParse => exact ⟨_, exec_rtpParse h, .noCause h nofun nofun⟩
  | rxPkt => exact ⟨_, exec_rxPkt h, .noCause h nofun nofun⟩
  | rtpBuild pt sc =>
    cases hv : s.valid with
    | false => exact ⟨_, exec_rtpBuild_of_invalid h hv pt sc, .noStream h nofun (.build pt sc) hv⟩
    | true => exact ⟨_, exec_rtpBuild_of_valid h hv pt sc, .noCause h nofun fun _ => hv⟩
  | rtpHdr =>
    rcases Nat.lt_or_ge s.din.length headerSize with hl | hl
    · exact ⟨_, exec_rtpHdr_of_short h hl, .ownLength h (.header hl)⟩
    · exact ⟨_, exec_rtpHdr_of_long h hl, .noCause h (fun | .header hs => hs.not_ge hl) nofun⟩
  | txFrame =>
    rcases Nat.lt_or_ge frameBytes s.din.length with hl | hl
    · exact ⟨_, exec_txFrame_of_long h hl, .ownLength h (.frame hl)⟩
    have hlen : ¬ OwnLengthRefused .txFrame s.din.length := fun | .frame hs => hs.not_ge hl
    cases hv : s.valid with
    | false => exact ⟨_, exec_txFrame_of_invalid h hl hv, .noStream h hlen .frame hv⟩
    | true =>
      rcases hl.lt_or_eq with hl | hl
      · exact ⟨_, exec_txFrame_of_short h hl hv, .noCause h hlen fun _ => hv⟩
      · exact ⟨_, exec_txFrame_of_whole h hl hv, .noCause h hlen fun _ => hv⟩

section Status
variable {i : Instr} {s : State} {c : Status} (h : FirstCause i s c)
include h

theorem FirstCause.ne_illegal : c ≠ .illegal := by
  cases h <;> decide

theorem FirstCause.eq_badlen_iff :
    c = .badlen ↔ s.config.dinMax < s.din.length ∨ OwnLengthRefused i s.din.length := by
  cases h with
  | overCapacity hover => simp [hover]
  | ownLength _ hlen => simp [hlen]
  | noStream hcap hlen => simp [hcap.not_gt, hlen]
  | noCause hcap hlen => simp [hcap.not_gt, hlen]

theorem FirstCause.eq_nostream_iff :
    c = .nostream ↔
      s.valid = false ∧ WithinCapacity s ∧ BuildsPacket i ∧ ¬ OwnLengthRefused i s.din.length := by
  cases h with
  | overCapacity hover => simp [hover.not_ge]
  | ownLength _ hlen => simp [hlen]
  | noStream hcap hlen hbuild hv => simp [hcap, hlen, hbuild, hv]
  | noCause hcap hlen hstream =>
    refine iff_of_false nofun fun ⟨hv, _, hbuild, _⟩ => ?_
    cases (hstream hbuild).symm.trans hv

/-- The chain of checks, for conditions that say which commands refuse a length and which build. -/
theorem FirstCause.eq_ite {P Q : Prop} [Decidable P] [Decidable Q] (hP : OwnLengthRefused i s.din.length ↔ P)
    (hQ : BuildsPacket i ↔ Q) :
    c = if s.config.dinMax < s.din.length then .badlen
      else if P then .badlen
      else if Q ∧ s.valid = false then .nostream
      else .ok := by
  cases h with
  | overCapacity hover => rw [if_pos hover]
  | ownLength hcap hlen => rw [if_neg hcap.not_gt, if_pos (hP.1 hlen)]
  | noStream hcap hlen hbuild hv => rw [if_neg hcap.not_gt, if_neg (hlen ∘ hP.2), if_pos ⟨hQ.1 hbuild, hv⟩]
  | noCause hcap hlen hstream =>
    have hnone : ¬ (Q ∧ s.valid = false) := fun ⟨hq, hv⟩ => by cases (hstream (hQ.2 hq)).symm.trans hv
    rw [if_neg hcap.not_gt, if_neg (hlen ∘ hP.2), if_neg hnone]

end Status

/-! ## The causes by the opcode of the word (R62, R63) -/

theorem opField_of_decode_ok {w : CommandWord} {i : Instr} (h : decode w = .ok i) : opField w = opField (encode i) := by
  rw [← decode_eq_ok_iff.1 h, opField_and_usedBits]

theorem ownLengthRefused_iff_opField {w : CommandWord} {i : Instr} (h : decode w = .ok i) (n : Nat) :
    OwnLengthRefused i n ↔ (opField w = 0x20 ∧ 320 < n) ∨ (opField w = 0x13 ∧ n < 12) := by
  rw [opField_of_decode_ok h, ownLengthRefused_iff]
  cases i <;> simp [encode]

theorem buildsPacket_iff_opField {w : CommandWord} {i : Instr} (h : decode w = .ok i) :
    BuildsPacket i ↔ opField w = 0x11 ∨ opField w = 0x20 := by
  rw [opField_of_decode_ok h, buildsPacket_iff]
  cases i <;> simp [encode]

/-! ## What a refused command leaves (R181) -/

/-- A refused command leaves the state it met with the response of the refusal in it. -/
theorem eq_refuse_of_status_ne_ok {i : Instr} {s t : State} (h : exec i s = .next t) (hne : t.response.status ≠ .ok) :
    t = refuse t.response.status s := by
  obtain ⟨u, hu, hc⟩ := exec_completes i s
  obtain rfl : u = t := by cases hu.symm.trans h; rfl
  obtain ⟨f, hf, rfl⟩ := exec_next_cases h
  obtain ⟨hscalar, hhdr, hdout⟩ := hc.wellFormed hne
  cases hf with
  | opens => exact absurd rfl hne
  | builds => exact absurd rfl hne
  | answers r =>
    obtain ⟨status, scalar, hdr, dout⟩ := r
    cases hscalar; cases hhdr; cases hdout
    rfl

/-- The step of a refused word takes the response of the refusal from the state that accepted `DIN`. -/
theorem step_of_refused {s t : State} {cw : CommandWord} {din : Buffer} {r : Response}
    (ha : currentAction s = some (.issue cw din)) (h : step s = .next t) (hr : t.responses = s.responses ++ [r])
    (hne : r.status ≠ .ok) : ∃ c, r = Response.refusal c ∧ t = retire (refuse c (accept din s)) := by
  cases hd : decode cw with
  | error e =>
    rw [step_of_decode_error ha hd] at h
    cases h
    cases List.append_cancel_left hr
    exact ⟨.illegal, rfl, rfl⟩
  | ok i =>
    rw [step_of_decode_ok ha hd] at h
    obtain ⟨u, hu, rfl⟩ := onNext_eq_next h
    obtain ⟨v, hv, hc⟩ := exec_completes i (accept din s)
    cases hv.symm.trans hu
    rw [retire_responses, hc.responses] at hr
    cases List.append_cancel_left hr
    have hrefused := eq_refuse_of_status_ne_ok hu hne
    exact ⟨_, congrArg State.response hrefused, congrArg retire hrefused⟩

/-- R41, R181: what stands in the response part when a command starts reaches nothing. -/
theorem exec_ignores_response (i : Instr) (s : State) (r : Response) : exec i { s with response := r } = exec i s := by
  obtain ⟨f, hf, hexec⟩ := exec_effect i s
  rw [hexec { s with response := r } rfl rfl rfl, hexec s rfl rfl rfl]
  cases hf <;> rfl

/-! ## The obligations on refusals -/

/-- Settles O45: a command by `eq_refuse_of_status_ne_ok`, a step by `step_of_refused`. -/
theorem refusalsChangeNothingButTheResponse : Obligations.RefusalsChangeNothingButTheResponse := by
  refine ⟨fun i s t => eq_refuse_of_status_ne_ok, fun s t cw din r ha h hr hne => ?_, exec_ignores_response⟩
  obtain ⟨c, rfl, rfl⟩ := step_of_refused ha h hr hne
  exact ⟨rfl, rfl⟩

/-- Settles O46, by the first cause of the command. -/
theorem badlenIsRaisedInExactlyThreeCases : Obligations.BadlenIsRaisedInExactlyThreeCases := by
  intro i s
  obtain ⟨t, ht, hcause⟩ := exec_answers_firstCause i s
  refine ⟨t, ht, ?_⟩
  rw [hcause.eq_badlen_iff, ownLengthRefused_iff]
  refine or_congr_right' fun hover => ?_
  simp [not_lt.1 hover]

/-- Settles O47, by the first cause of the command: the builds no length check stops. -/
theorem nostreamComesAfterEveryLengthCheck : Obligations.NostreamComesAfterEveryLengthCheck := by
  intro i s
  obtain ⟨t, ht, hcause⟩ := exec_answers_firstCause i s
  refine ⟨t, ht, hcause.ne_illegal, ?_⟩
  rw [hcause.eq_nostream_iff, buildsPacket_and_not_ownLengthRefused_iff]

/-- Settles O48: a reserved opcode is refused first, a listed one answers the first cause of its command. -/
theorem statusIsTheFirstCauseInOrder : Obligations.StatusIsTheFirstCauseInOrder := by
  intro s cw din ha
  by_cases hop : opField cw ∈ listedOpcodes
  · obtain ⟨i, hd, -⟩ := decode_of_listed hop
    obtain ⟨u, hu, hcause⟩ := exec_answers_firstCause i (accept din s)
    obtain ⟨v, hv, hc⟩ := exec_completes i (accept din s)
    cases hv.symm.trans hu
    exact ⟨retire u, u.response, by rw [step_of_decode_ok ha hd, hu, onNext_next],
      congrArg (· ++ [u.response]) hc.responses,
      (hcause.eq_ite (ownLengthRefused_iff_opField hd _) (buildsPacket_iff_opField hd)).trans
        (if_neg (not_not_intro hop)).symm⟩
  · exact ⟨_, _, step_of_decode_error ha (decode_of_not_listed hop), rfl, (if_pos hop).symm⟩

/-- Settles O9: no action stands at an index past the program. -/
theorem exhaustedProgramLeavesTheBlockIdle : Obligations.ExhaustedProgramLeavesTheBlockIdle :=
  fun _ h => step_of_exhausted (currentAction_eq_none_iff.2 h)

end Sys2Proof.Machine

/-! Reset and hazards (spec/70_reset_and_hazards.md): what an `rst` pulse leaves, which commands work straight after it,
and the interleaving of the receive path with the send path. -/

namespace Sys2Proof.Machine

/-! ## Straight after a hardware reset (R200, R201) -/

/-- Settles O10: the step is `takeReset`, and a stream with `VALID` 0 has no value. -/
theorem hardwareResetStepClearsTheStream : Obligations.HardwareResetStepClearsTheStream :=
  fun _ h => ⟨_, step_of_pulseRst h, rfl, stream_of_invalid rfl, rfl, rfl, rfl, rfl, rfl, rfl, rfl, rfl⟩

/-- R27, R50: within capacity not even `DIN_MAX` reaches the response of a stateless command, and `RTP.HDR` alone can
refuse, for its length. -/
theorem exec_of_stateless_within_capacity {i : Instr} {din : Buffer} (hi : statelessCommand i = true)
    (hlen : i = .rtpHdr → 12 ≤ din.length) :
    ∃ r : Response, r.status = .ok ∧
      ∀ s : State, s.din = din → WithinCapacity s → exec i s = .next (respond r s) := by
  cases i with
  | ulawEnc x => exact ⟨.okScalar _, rfl, fun _ _ h => exec_ulawEnc h x⟩
  | ulawDec u => exact ⟨.okScalar _, rfl, fun _ _ h => exec_ulawDec h u⟩
  | ulawEncb => exact ⟨.okDout _, rfl, fun _ hd h => hd ▸ exec_ulawEncb h⟩
  | ulawDecb => exact ⟨.okDout _, rfl, fun _ hd h => hd ▸ exec_ulawDecb h⟩
  | rtpParse => exact ⟨.okDout _, rfl, fun _ hd h => hd ▸ exec_rtpParse h⟩
  | rtpHdr => exact ⟨.okHdr _, rfl, fun _ hd h => hd ▸ exec_rtpHdr_of_long h (hd ▸ hlen rfl)⟩
  | rxPkt => exact ⟨.okDout _, rfl, fun _ hd h => hd ▸ exec_rxPkt h⟩
  | rtpReset => cases hi
  | rtpBuild => cases hi
  | txFrame => cases hi

/-- R185: with every check passed the status is `OK`. -/
theorem FirstCause.eq_ok {i : Instr} {s : State} {c : Status} (h : FirstCause i s c) (hcap : WithinCapacity s)
    (hlen : ¬ OwnLengthRefused i s.din.length) (hstream : BuildsPacket i → s.valid = true) : c = .ok := by
  cases h with
  | overCapacity hover => exact absurd hover hcap.not_gt
  | ownLength _ hrefused => exact absurd hrefused hlen
  | noStream _ _ hbuild hv => cases hv.symm.trans (hstream hbuild)
  | noCause => rfl

/-- Settles O32: a stateless command answers as in every state; a build is refused for `VALID` 0 alone, which
`RTP.RESET` sets. -/
theorem afterResetOnlyTheBuildsAreRefused : Obligations.AfterResetOnlyTheBuildsAreRefused := by
  intro din hdin
  have hcap : WithinCapacity { State.reset with din := din } := hdin
  constructor
  · intro i hi hlen
    obtain ⟨r, hok, hr⟩ := exec_of_stateless_within_capacity hi hlen
    exact ⟨_, hr _ rfl hcap, hok, fun s hd h => ⟨_, hr s hd h, rfl⟩⟩
  · intro i hi
    obtain ⟨hbuild, hlen⟩ := buildsPacket_and_not_ownLengthRefused_iff.2 hi
    obtain ⟨t, ht, hbefore⟩ := exec_answers_firstCause i { State.reset with din := din }
    obtain ⟨r, hr, hafter⟩ := exec_answers_firstCause i (startStream { State.reset with din := din })
    exact ⟨t, _, r, ht, hbefore.eq_nostream_iff.2 ⟨rfl, hcap, hbuild, hlen⟩, exec_rtpReset hcap, rfl, hr,
      hafter.eq_ok hcap hlen fun _ => rfl⟩

/-! ## Two states with one stream (R27, R53) -/

/-- The two states agree in everything a command can see but `DIN`, and in everything it can write but its response: the
parameter, the stream registers and the draws to come. -/
structure SameStream (s s' : State) : Prop where
  config : s'.config = s.config
  valid : s'.valid = s.valid
  seq : s'.seq = s.seq
  ts : s'.ts = s.ts
  ssrc : s'.ssrc = s.ssrc
  entropy : s'.entropy = s.entropy
  drawn : s'.drawn = s.drawn

theorem SameStream.rnd {s s' : State} (h : SameStream s s') : s'.rnd = s.rnd := by
  rw [State.rnd, State.rnd, h.entropy, h.drawn]

theorem SameStream.trans {s s' s'' : State} (h : SameStream s s') (h' : SameStream s' s'') : SameStream s s'' where
  config := h'.config.trans h.config
  valid := h'.valid.trans h.valid
  seq := h'.seq.trans h.seq
  ts := h'.ts.trans h.ts
  ssrc := h'.ssrc.trans h.ssrc
  entropy := h'.entropy.trans h.entropy
  drawn := h'.drawn.trans h.drawn

/-- Neither the exchange of buffers nor a response reaches the stream. -/
theorem sameStream_retire_respond (r : Response) (din : Buffer) (s : State) :
    SameStream (retire (respond r (accept din s))) s := ⟨rfl, rfl, rfl, rfl, rfl, rfl, rfl⟩

section Preserved
variable {s s' : State} (h : SameStream s s')
include h

theorem SameStream.accept (din : Buffer) : SameStream (accept din s) (accept din s') :=
  ⟨h.config, h.valid, h.seq, h.ts, h.ssrc, h.entropy, h.drawn⟩

theorem SameStream.respond (r r' : Response) : SameStream (respond r s) (respond r' s') :=
  ⟨h.config, h.valid, h.seq, h.ts, h.ssrc, h.entropy, h.drawn⟩

theorem SameStream.retire : SameStream (retire s) (retire s') :=
  ⟨h.config, h.valid, h.seq, h.ts, h.ssrc, h.entropy, h.drawn⟩

theorem SameStream.startStream : SameStream (startStream s) (startStream s') where
  config := h.config
  valid := rfl
  seq := congrArg (BitVec.extractLsb' 32 16) h.rnd
  ts := rfl
  ssrc := congrArg (BitVec.extractLsb' 0 32) h.rnd
  entropy := congrArg List.tail h.entropy
  drawn := congrArg (· + 1) h.drawn

theorem SameStream.advanceStream (sc : BitVec 32) : SameStream (advanceStream sc s) (advanceStream sc s') where
  config := h.config
  valid := h.valid
  seq := congrArg (· + 1) h.seq
  ts := congrArg (· + sc) h.ts
  ssrc := h.ssrc
  entropy := h.entropy
  drawn := h.drawn

/-- R53: a command met on one `DIN` in two states with one stream answers one response and leaves one stream. -/
theorem exec_sameStream (i : Instr) (hd : s'.din = s.din) :
    ∃ u u', exec i s = .next u ∧ exec i s' = .next u' ∧ u'.response = u.response ∧ SameStream u u' := by
  obtain ⟨f, hf, hexec⟩ := exec_effect i s
  refine ⟨f s, f s', hexec s rfl rfl rfl, hexec s' h.config hd h.valid, ?_⟩
  cases hf with
  | answers r => exact ⟨rfl, h.respond r r⟩
  | opens => exact ⟨rfl, h.startStream⟩
  | builds pt sc payload =>
    have hheader : rtpHeader pt s'.seq s'.ts s'.ssrc = rtpHeader pt s.seq s.ts s.ssrc := by rw [h.seq, h.ts, h.ssrc]
    exact ⟨congrArg (fun header => Response.okDout (header ++ payload)) hheader, (h.advanceStream sc).respond _ _⟩

end Preserved

/-! ## One step of a run (R21, R213) -/

/-- The step from `s` to `u` gives the response `r` and moves the index on. -/
structure Answers (s u : State) (r : Response) : Prop where
  step : step s = .next u
  program : u.program = s.program
  index : u.index = s.index + 1
  responses : u.responses = s.responses ++ [r]

theorem answers_of_decode_error {s : State} {cw : CommandWord} {din : Buffer} {e : DecodeError}
    (ha : currentAction s = some (.issue cw din)) (hd : decode cw = .error e) :
    Answers s (retire (refuse .illegal (accept din s))) (Response.refusal .illegal) :=
  ⟨step_of_decode_error ha hd, rfl, rfl, rfl⟩

theorem answers_of_decode_ok {s u : State} {cw : CommandWord} {din : Buffer} {i : Instr}
    (ha : currentAction s = some (.issue cw din)) (hd : decode cw = .ok i) (hu : exec i (accept din s) = .next u) :
    Answers s (retire u) u.response := by
  obtain ⟨v, hv, hc⟩ := exec_completes i (accept din s)
  cases hv.symm.trans hu
  exact ⟨by rw [step_of_decode_ok ha hd, hu, onNext_next], hc.program, congrArg (· + 1) hc.index,
    congrArg (· ++ [u.response]) hc.responses⟩

/-- The actions still to come after a step. -/
theorem Answers.drop {s u : State} {r : Response} {a : HostAction} {as : List HostAction} (h : Answers s u r)
    (hdrop : s.program.drop s.index = a :: as) : u.program.drop u.index = as := by
  rw [h.program, h.index, ← List.tail_drop, hdrop, List.tail_cons]

theorem exists_of_statelessAction {a : HostAction} (h : statelessAction a = true) :
    ∃ cw din i, a = .issue cw din ∧ decode cw = .ok i ∧ statelessCommand i = true := by
  cases a with
  | pulseRst => cases h
  | issue cw din =>
    rw [statelessAction] at h
    split at h
    · next i hd => exact ⟨cw, din, i, rfl, hd, h⟩
    · cases h

/-- R27: the step of a stateless command leaves the stream. -/
theorem step_of_statelessAction {s : State} {a : HostAction} (ha : currentAction s = some a)
    (hstateless : statelessAction a = true) : ∃ u r, Answers s u r ∧ SameStream u s := by
  obtain ⟨cw, din, i, rfl, hd, hi⟩ := exists_of_statelessAction hstateless
  obtain ⟨r, hr⟩ := exec_of_stateless hi (accept din s)
  exact ⟨_, r, answers_of_decode_ok ha hd (hr _ rfl rfl), sameStream_retire_respond r din s⟩

/-- R53: one word issued in two states with one stream gives one response and leaves one stream. -/
theorem step_sameStream {s s' : State} {cw : CommandWord} {din : Buffer} (h : SameStream s s')
    (ha : currentAction s = some (.issue cw din)) (ha' : currentAction s' = some (.issue cw din)) :
    ∃ u u' r, Answers s u r ∧ Answers s' u' r ∧ SameStream u u' := by
  cases hd : decode cw with
  | error e =>
    exact ⟨_, _, _, answers_of_decode_error ha hd, answers_of_decode_error ha' hd,
      ((h.accept din).respond _ _).retire⟩
  | ok i =>
    obtain ⟨u, u', hu, hu', hresp, hstream⟩ := exec_sameStream (h.accept din) i rfl
    exact ⟨retire u, retire u', u.response, answers_of_decode_ok ha hd hu, hresp ▸ answers_of_decode_ok ha' hd hu',
      hstream.retire⟩

/-! ## Two runs (R207, R213) -/

/-- A run of `n` steps from `s` ends in `t` and has given these responses. -/
structure RunGives (n : Nat) (s t : State) (given : List Response) : Prop where
  run : core.run n s = .next t
  responses : t.responses = s.responses ++ given

theorem RunGives.refl (s : State) : RunGives 0 s s [] := ⟨rfl, (List.append_nil _).symm⟩

theorem Answers.then {n : Nat} {s u t : State} {r : Response} {given : List Response} (h : Answers s u r)
    (h' : RunGives n u t given) : RunGives (n + 1) s t (r :: given) where
  run := (core_run_succ h.step n).trans h'.run
  responses := by rw [h'.responses, h.responses, List.append_assoc, List.singleton_append]

/-- The actions that issue no stateless command. -/
def keptActions (actions : List HostAction) : List HostAction := actions.filter fun a => ! statelessAction a

theorem keptActions_cons_of_stateless {a : HostAction} (h : statelessAction a = true) (as : List HostAction) :
    keptActions (a :: as) = keptActions as :=
  List.filter_cons_of_neg (by simp [h])

theorem keptActions_cons_of_not_stateless {a : HostAction} (h : statelessAction a = false) (as : List HostAction) :
    keptActions (a :: as) = a :: keptActions as :=
  List.filter_cons_of_pos (by simp [h])

/-- The responses given to the actions that issue no stateless command. -/
def keptResponses (actions : List HostAction) (given : List Response) : List Response :=
  ((actions.zip given).filter fun q => ! statelessAction q.1).map Prod.snd

theorem keptResponses_cons_of_stateless {a : HostAction} (h : statelessAction a = true) (as : List HostAction)
    (r : Response) (given : List Response) : keptResponses (a :: as) (r :: given) = keptResponses as given := by
  simp [keptResponses, h]

theorem keptResponses_cons_of_not_stateless {a : HostAction} (h : statelessAction a = false) (as : List HostAction)
    (r : Response) (given : List Response) : keptResponses (a :: as) (r :: given) = r :: keptResponses as given := by
  simp [keptResponses, h]

/-- R207: from two states with one stream, the run of a list of commands and the run of those that are not stateless end
with one stream, and the second gives the responses the first gives to its commands. A stateless command moves the first
run only; any other moves both alike. -/
theorem run_without_stateless (actions : List HostAction) : ∀ s s' : State, SameStream s s' →
    (∀ a ∈ actions, ∃ cw din, a = .issue cw din) → s.program.drop s.index = actions →
    s'.program.drop s'.index = keptActions actions →
    ∃ t t' given, RunGives actions.length s t given ∧
      RunGives (keptActions actions).length s' t' (keptResponses actions given) ∧ SameStream t t' := by
  induction actions with
  | nil => exact fun s s' h _ _ _ => ⟨s, s', [], .refl s, .refl s', h⟩
  | cons a as ih =>
    intro s s' h hall hdrop hdrop'
    obtain ⟨⟨cw, din, rfl⟩, hrest⟩ := List.forall_mem_cons.1 hall
    have ha := currentAction_of_drop hdrop
    cases hstateless : statelessAction (.issue cw din) with
    | true =>
      rw [keptActions_cons_of_stateless hstateless] at hdrop' ⊢
      obtain ⟨u, r, hu, hus⟩ := step_of_statelessAction ha hstateless
      obtain ⟨t, t', given, hrun, hrun', hstream⟩ := ih u s' (hus.trans h) hrest (hu.drop hdrop) hdrop'
      refine ⟨t, t', r :: given, hu.then hrun, ?_, hstream⟩
      rwa [keptResponses_cons_of_stateless hstateless]
    | false =>
      rw [keptActions_cons_of_not_stateless hstateless] at hdrop' ⊢
      obtain ⟨u, u', r, hu, hu', huu'⟩ := step_sameStream h ha (currentAction_of_drop hdrop')
      obtain ⟨t, t', given, hrun, hrun', hstream⟩ := ih u u' huu' hrest (hu.drop hdrop) (hu'.drop hdrop')
      refine ⟨t, t', r :: given, hu.then hrun, ?_, hstream⟩
      rw [keptResponses_cons_of_not_stateless hstateless]
      exact hu'.then hrun'

/-- Settles O55: the two runs of `run_without_stateless` from one state, with no response given yet. -/
theorem receivePathDoesNotDisturbTheSendPath : Obligations.ReceivePathDoesNotDisturbTheSendPath := by
  intro s p hall
  obtain ⟨t, t', given, hrun, hrun', hstream⟩ := run_without_stateless p
    { s with program := p, index := 0, responses := [] }
    { s with program := keptActions p, index := 0, responses := [] }
    ⟨rfl, rfl, rfl, rfl, rfl, rfl, rfl⟩ hall rfl rfl
  have hgiven : t.responses = given := hrun.responses
  refine ⟨t, t', hrun.run, hrun'.run, hstream.valid.symm, hstream.seq.symm, hstream.ts.symm, hstream.ssrc.symm,
    hstream.entropy.symm, ?_⟩
  rw [hgiven]
  exact hrun'.responses.symm

end Sys2Proof.Machine
